-- ==== Sys2Proof/Word.lean ====
section
/-! DEFINITION. The words of the TQ-6: bytes on the control link, the weir clock, and the numbers of its records.
Openings, levels and heads are signed millimetres and are `Int`; allowances and counts are `Nat`. -/

namespace Sys2Proof

/-- A byte of the control link (R195). -/
abbrev Byte := BitVec 8

/-- The weir clock and every stamped time: an unsigned 32-bit count of 100 ms ticks (R193). -/
abbrev Clock := BitVec 32

/-- G0 to G5. -/
abbrev GateNo := Fin 6

/-- O0 to O23. -/
abbrev SlotNo := Fin 24

/-- P0 to P2. -/
abbrev UnitNo := Fin 3

/-- T0 to T7. -/
abbrev ThrNo := Fin 8

/-- B0 to B7. -/
abbrev BandNo := Fin 8

/-- S0 to S15. -/
abbrev StepNo := Fin 16

/-- G0 to G5 in number order. -/
def allGates : List GateNo := [0, 1, 2, 3, 4, 5]

/-- P0 to P2 in number order. -/
def allUnits : List UnitNo := [0, 1, 2]

/-- T0 to T7 in number order. -/
def allThresholds : List ThrNo := [0, 1, 2, 3, 4, 5, 6, 7]

/-- B0 to B7 in number order. -/
def allBands : List BandNo := [0, 1, 2, 3, 4, 5, 6, 7]

/-- O0 to O23 in number order. -/
def allSlots : List SlotNo :=
  [0, 1, 2, 3, 4, 5, 6, 7, 8, 9, 10, 11, 12, 13, 14, 15, 16, 17, 18, 19, 20, 21, 22, 23]

end Sys2Proof
end

