-- ==== Sys2Proof/Syntax.lean ====
section
/-! DEFINITION. The commands of the TQ-6: one constructor of `Instr` per row of spec/opcode_table.json, and the
operands they carry. The fields of a request are the numbers its body carried, before any check (R199: "Values that
the link port lets through at stage 3 are judged by the owning block"). -/

namespace Sys2Proof

/-- Field channel A or B of a gate (1.2). -/
inductive Channel where
  | a | b
  deriving DecidableEq, Repr

/-- The left or right end of a gate (1.2). -/
inductive HoistEnd where
  | l | r
  deriving DecidableEq, Repr

/-- Lock-pin feedback, in the order R15 lists it. -/
inductive PinPos where
  | engaged | withdrawn | between
  deriving DecidableEq, Repr

/-- The river-side and the sea-side gauge (R110). -/
inductive Gauge where
  | up | down
  deriving DecidableEq, Repr

/-- The line rate the RATE strap selects: low 57 600, high 115 200 bit/s (R195). -/
inductive LinkRate where
  | low | high
  deriving DecidableEq, Repr

/-- Fields 3 to 21 of CONFIGURE_GATE with PRESENT, as sent (R11). -/
structure RawGate where
  openingMax : Int
  swap : Nat
  lDir : Nat
  lZero : Nat
  lScale : Nat
  rDir : Nat
  rZero : Nat
  rScale : Nat
  deadband : Int
  skewTrim : Int
  skewTrip : Int
  approach : Int
  releaseTime : Nat
  buildSteps : Nat
  buildPressure : Nat
  lockTime : Nat
  quietCount : Nat
  permitted : Nat
  overrideAllowed : Nat
  deriving DecidableEq, Repr

/-- The seven fields of CONFIGURE_TIDE, as sent (R127). -/
structure RawTide where
  upLow : Int
  upHigh : Int
  downLow : Int
  downHigh : Int
  turnBand : Int
  turnConfirm : Nat
  surgeRate : Int
  deriving DecidableEq, Repr

/-- The five fields of CONFIGURE_THRESHOLD, as sent (R119). -/
structure RawThreshold where
  index : Nat
  signal : Nat
  level : Int
  hysteresis : Int
  enabled : Nat
  deriving DecidableEq, Repr

/-- The six fields of CONFIGURE_QUEUE, as sent (R144). -/
structure RawQueue where
  gate : Nat
  base : Nat
  size : Nat
  limit : Nat
  limitDir : Nat
  holdTime : Nat
  deriving DecidableEq, Repr

/-- Fields 2 to 10 of POST_ORDER, as sent (R49). The two optional fields carry their presence byte; the value beside a
presence byte of 0 is not sent and is not read. -/
structure RawOrder where
  kind : Nat
  gate : Nat
  targetPresence : Nat
  target : Int
  speed : Nat
  priority : Nat
  rule : Nat
  triggerPresence : Nat
  eventKind : Nat
  thrIndex : Nat
  rep : Nat
  tag : Nat
  deriving DecidableEq, Repr

/-- One point of PUSH_POINTS, as sent (R146). -/
structure RawPoint where
  target : Int
  stepTime : Nat
  tag : Nat
  deriving DecidableEq, Repr

/-- The five fields of SET_LOAD_WINDOW, as sent (R166). -/
structure RawWindow where
  firstStep : Nat
  lastStep : Nat
  firstGate : Nat
  lastGate : Nat
  advance : Nat
  deriving DecidableEq, Repr

/-- The eight fields of DEFINE_SEQUENCE, as sent (R170). -/
structure RawSequence where
  firstStep : Nat
  lastStep : Nat
  repetitions : Nat
  windowFirst : Nat
  windowLast : Nat
  priority : Nat
  speed : Nat
  rule : Nat
  deriving DecidableEq, Repr

/-- A request as the link port hands it to its owning block (R199, stage 4): a kind of the catalogue of R208 and the
fields of a body of the required length. -/
inductive Request where
  | status
  | setClock (value : Clock)
  | run
  | hold
  | stopAll
  | reset
  | setNotices (flags : List Nat)
  | configureGate (gate presence : Nat) (p : RawGate)
  | configureUnit (unit idleTime : Nat)
  | configureArbiter (mode : Nat)
  | configureTide (f : RawTide)
  | configureThreshold (f : RawThreshold)
  | configureEnvelope (boundaries cells : List Int)
  | configureQueue (f : RawQueue)
  | postOrder (slot : Nat) (f : RawOrder)
  | withdrawOrder (slot : Nat)
  | readSlot (slot : Nat)
  | unlock (slot : Nat)
  | listSlots
  | readGate (gate : Nat)
  | stopGate (gate : Nat)
  | clearTrip (gate : Nat)
  | setUnitService (unit service : Nat)
  | readTide
  | pushPoints (gate : Nat) (points : List RawPoint)
  | peekPoints (gate position count : Nat)
  | flushPoints (gate : Nat)
  | readQueue (gate : Nat)
  | setLoadWindow (f : RawWindow)
  | writeCells (values : List Nat)
  | setStepDwell (step dwell : Nat)
  | readCells (step : Nat)
  | defineSequence (f : RawSequence)
  | startSequence
  | stopSequence
  deriving DecidableEq, Repr

/-- The commands of the TQ-6, one constructor per row of the table, in the table's order. In a request row `n` is the
request number of its frame (R196). -/
inductive Instr where
  | resetLineAsserted
  | coldReset (strap : LinkRate)
  | weirClockTick
  | receivedByte (b : Byte) (stopHigh : Bool)
  | gapTimerExpiry
  | frameFinished
  | status (n : Byte)
  | setClock (n : Byte) (value : Clock)
  | run (n : Byte)
  | hold (n : Byte)
  | stopAll (n : Byte)
  | reset (n : Byte)
  | setNotices (n : Byte) (flags : List Nat)
  | configureGatePresent (n : Byte) (gate : Nat) (p : RawGate)
  | configureGateAbsent (n : Byte) (gate : Nat)
  | configureUnit (n : Byte) (unit idleTime : Nat)
  | configureArbiter (n : Byte) (mode : Nat)
  | configureTide (n : Byte) (f : RawTide)
  | configureThreshold (n : Byte) (f : RawThreshold)
  | configureEnvelope (n : Byte) (boundaries cells : List Int)
  | configureQueue (n : Byte) (f : RawQueue)
  | postOrder (n : Byte) (slot : Nat) (f : RawOrder)
  | withdrawOrder (n : Byte) (slot : Nat)
  | readSlot (n : Byte) (slot : Nat)
  | unlock (n : Byte) (slot : Nat)
  | listSlots (n : Byte)
  | readGate (n : Byte) (gate : Nat)
  | stopGate (n : Byte) (gate : Nat)
  | clearTrip (n : Byte) (gate : Nat)
  | setUnitServiceOut (n : Byte) (unit : Nat)
  | setUnitServiceIn (n : Byte) (unit : Nat)
  | readTide (n : Byte)
  | pushPoints (n : Byte) (gate : Nat) (points : List RawPoint)
  | peekPoints (n : Byte) (gate position count : Nat)
  | flushPoints (n : Byte) (gate : Nat)
  | readQueue (n : Byte) (gate : Nat)
  | setLoadWindow (n : Byte) (f : RawWindow)
  | writeCells (n : Byte) (values : List Nat)
  | setStepDwell (n : Byte) (step dwell : Nat)
  | readCells (n : Byte) (step : Nat)
  | defineSequence (n : Byte) (f : RawSequence)
  | startSequence (n : Byte)
  | stopSequence (n : Byte)
  | encoderSample (gate : GateNo) (ch : Channel) (count pressure elapsed : Nat)
  | encoderSilenceExpiry (gate : GateNo) (e : HoistEnd)
  | lockPinFeedback (gate : GateNo) (ch : Channel) (pos : PinPos)
  | releaseTimerExpiry (gate : GateNo)
  | buildTimerExpiry (gate : GateNo)
  | stallTimerExpiry (gate : GateNo) (e : HoistEnd)
  | settleTimerExpiry (gate : GateNo)
  | lockTimerExpiry (gate : GateNo)
  | tripLockTimerExpiry (gate : GateNo)
  | holdTimerExpiry (gate : GateNo)
  | readyChange (unit : UnitNo) (ready : Bool)
  | faultAssertion (unit : UnitNo)
  | faultClearing (unit : UnitNo)
  | linedUpChange (unit : UnitNo) (lined : Bool)
  | startTimerExpiry (unit : UnitNo)
  | lineUpTimerExpiry (unit : UnitNo)
  | idleTimerExpiry (unit : UnitNo)
  | gaugeSample (gauge : Gauge) (level : Int)
  | gaugeSilenceExpiry (gauge : Gauge)
  | postingAttempt
  | runnerCollection (slot : SlotNo)
  | dwellTimerExpiry
  deriving DecidableEq, Repr

end Sys2Proof
end

