-- ==== Sys2Proof/Decode.lean ====
section
/-! DEFINITION. The table of commands gives no row bits ("n_rows_with_fixed": 0 in spec/98_reader.md), so no word
spells a command. -/

namespace Sys2Proof

/-- The command a word spells by the table's bits: none, since no row of the table gives bits. The bytes of the
control link are decoded by the receiver (Machine/Receiver.lean), as R197 to R199 and R206 to R208 state. -/
def decodeTableWord (_nbits _w : Nat) : Option Instr := none

end Sys2Proof
end

