-- ==== Sys2Proof/Config.lean ====
section
/-! DEFINITION. What the spec leaves open (constants with no body: nothing in Lean can evaluate one) and the fixed
allowances the spec gives in numbers. -/

namespace Sys2Proof

/-- FREE VALUE (log 7). R201: "If a reply and a notice are handed over while the line is idle, either may be taken
first." True: the reply. Applied to `State.freeCount`. -/
opaque Config.replyFirst : Nat → Bool

/-- FREE VALUE (logs 8 and 9). Orders what one event does to several gates or slots where the spec gives no order:
lower keys first. Applied to `State.freeCount` and to the item's number in the event. -/
opaque Config.orderKey : Nat → Nat → Nat

/-- FREE VALUE (log 10). The two bytes sent for a number of millimetres outside -32 768 to +32 767, which R206's
signed two-byte form cannot hold and R4 does not exclude. -/
opaque Config.mmOutOfRange : Int → BitVec 16

/-- FREE VALUE (log 11). The silicon revision less one (R208: "the silicon revision as its number counting from 1"). -/
opaque Config.revisionIndex : Fin 255

/-- The silicon revision as one byte (R194, R208). -/
def Config.siliconRevision : Byte := BitVec.ofNat 8 (Config.revisionIndex.val + 1)

/-- Encoder silence allowance, ms (R6). -/
def Config.encoderSilence : Nat := 250
/-- Gauge silence allowance, ms (R110). -/
def Config.gaugeSilence : Nat := 5000
/-- Stall allowance, ms (R27). -/
def Config.stallTime : Nat := 2000
/-- Settle allowance, ms (R29). -/
def Config.settleTime : Nat := 20000
/-- Start allowance, ms (R97). -/
def Config.startTime : Nat := 10000
/-- Line-up allowance, ms (R100). -/
def Config.lineUpTime : Nat := 5000
/-- Receive gap allowance, ms (R197). -/
def Config.gapTime : Nat := 20

end Sys2Proof
end

