-- ==== Sys2Proof/Machine/State.lean ====
section
/-! DEFINITION. The state of the TQ-6, the reasons a step can stop, and the state after cold reset. Enumerations list
their values in the order of the rule that owns them, which is the order of their codes (R206). -/

namespace Sys2Proof.Machine

/-- Device mode (R184). -/
inductive DeviceMode where
  | config | run | draining | resetting
  deriving DecidableEq, Repr

/-- Drain flavour (R184). -/
inductive Flavour where
  | hold | stop
  deriving DecidableEq, Repr

/-- Gate state, ABSENT included (R1, R206). -/
inductive GateState where
  | absent | parked | releasing | building | travel | held | settling | locking | tripped
  deriving DecidableEq, Repr

/-- Slot state (R48). -/
inductive SlotState where
  | free | armed | pending | granted | running | done
  deriving DecidableEq, Repr

/-- Unit state (R93). -/
inductive UnitState where
  | off | startQueued | starting | idle | liningUp | assigned | outOfService
  deriving DecidableEq, Repr

/-- Order kind (R45). -/
inductive OrderKind where
  | set | stream | level
  deriving DecidableEq, Repr

/-- Speed class (R45). -/
inductive Speed where
  | slow | normal | fast
  deriving DecidableEq, Repr

/-- Envelope rule (R45). -/
inductive EnvRule where
  | clamp | refuse | override
  deriving DecidableEq, Repr

/-- Repeat of an order (R45). -/
inductive Rep where
  | once | rearm
  deriving DecidableEq, Repr

/-- Owner of a slot (R46). -/
inductive Owner where
  | host | sequence
  deriving DecidableEq, Repr

/-- Kind of a tide event (R125). -/
inductive EventKind where
  | rise | fall | turnEbb | turnFlood | surge | gaugeFault | gaugeOk
  deriving DecidableEq, Repr

/-- Outcome of an order (R47). -/
inductive OrderOutcome where
  | reached | clamped | envelope | unsettled | stopped | cut | starved | tripped
  deriving DecidableEq, Repr

/-- Trip cause (R34, R47). -/
inductive TripCause where
  | encoder | lockPin | pressure | stall | skew | overtravel | powerLost
  deriving DecidableEq, Repr

/-- End concerned of a trip (R34). -/
inductive Concern where
  | l | r | both
  deriving DecidableEq, Repr

/-- Out-of-service cause (R93). -/
inductive OutCause where
  | startFailed | lineUp | fault | maintenance
  deriving DecidableEq, Repr

/-- Direction of a UNIT_STATE notice (R105). -/
inductive ServiceDir where
  | out | into
  deriving DecidableEq, Repr

/-- Encoder status of an end (R6). -/
inductive EncStatus where
  | unknown | good | faulted
  deriving DecidableEq, Repr

/-- Valve setting of an end; rates in mm/s (1.2). -/
inductive Valve where
  | closed | build | raise (rate : Nat) | lower (rate : Nat)
  deriving DecidableEq, Repr

/-- Lock-pin command of an end (1.2). -/
inductive PinCmd where
  | engage | withdraw
  deriving DecidableEq, Repr

/-- Count direction of an end (R4). -/
inductive CountDir where
  | upCounts | downCounts
  deriving DecidableEq, Repr

/-- End swap of a gate (R3). -/
inductive Swap where
  | normal | swapped
  deriving DecidableEq, Repr

/-- Phase timer of a gate (R16). -/
inductive PhaseTimer where
  | release | build | settle | lock
  deriving DecidableEq, Repr

/-- Timer of a unit (R93). -/
inductive UnitTimer where
  | start | lineUp | idle
  deriving DecidableEq, Repr

/-- Gauge state (R110). -/
inductive GaugeState where
  | unknown | good | faulted
  deriving DecidableEq, Repr

/-- Signal of a threshold (R116). -/
inductive Signal where
  | up | down | head
  deriving DecidableEq, Repr

/-- State of a threshold (R116). -/
inductive ThrState where
  | unknown | below | above
  deriving DecidableEq, Repr

/-- Confirmed tide direction (R120). -/
inductive TideDir where
  | unknown | ebb | flood
  deriving DecidableEq, Repr

/-- Side a confirmation runs toward (R120). -/
inductive Side where
  | ebb | flood
  deriving DecidableEq, Repr

/-- Limit direction of a queue (R143). -/
inductive LimitDir where
  | falling | rising
  deriving DecidableEq, Repr

/-- Tag of a point (R145). -/
inductive PointTag where
  | plain | mark | last
  deriving DecidableEq, Repr

/-- Advance order of the load window (R166). -/
inductive Advance where
  | gateFirst | stepFirst
  deriving DecidableEq, Repr

/-- State of the sequence runner (R171). -/
inductive RunnerState where
  | idle | posting | step | dwell | windingDown
  deriving DecidableEq, Repr

/-- Outcome of a SEQUENCE_END (R207). -/
inductive EndOutcome where
  | complete | failed | aborted
  deriving DecidableEq, Repr

/-- Failure cause of a sequence (R171). -/
inductive FailCause where
  | outcome (o : OrderOutcome) | interfered | cellRefused | windowTooSmall
  deriving DecidableEq, Repr

/-- Cause of a MODE notice (R184). -/
inductive ModeCause where
  | request | drainEnd | warmReset | coldReset
  deriving DecidableEq, Repr

/-- Arbitration mode (R82, R91). -/
inductive ArbMode where
  | priority | slotOrder
  deriving DecidableEq, Repr

/-- State of the receiver (R197). -/
inductive RxState where
  | waiting | opened
  deriving DecidableEq, Repr

/-- Status of a reply, in code order (R205). -/
inductive Status where
  | ok | unknownKind | badLength | badValue | wrongMode | resetting | gateAbsent | slotBusy | notPermitted | noQueue
  | queueFull | notEmpty | overlap | streamActive | tripPersists | notTripped | nothingToStop | sequenceActive
  | noSequence | unitBusy | faultPresent | noGates
  deriving DecidableEq, Repr

/-- Trigger of an order: an event kind or ANY (`none`), and a threshold index or ANY (`none`) (R45). -/
structure Trigger where
  kind : Option EventKind
  index : Option ThrNo
  deriving DecidableEq, Repr

/-- The order part of a slot (R45). -/
structure Order where
  kind : OrderKind
  gate : GateNo
  target : Option Int
  speed : Speed
  priority : Nat
  rule : EnvRule
  trigger : Option Trigger
  rep : Rep
  tag : Nat
  deriving DecidableEq, Repr

/-- The report part of a slot (R47). -/
structure Report where
  outcome : OrderOutcome
  cause : Option TripCause
  finalL : Option Int
  finalR : Option Int
  startTime : Option Clock
  endTime : Clock
  unitUsed : Option UnitNo
  unread : Bool
  overwritten : Bool
  deriving DecidableEq, Repr

/-- A slot of the order table (R45 to R47). Its locked field is `State.locked`. -/
structure Slot where
  state : SlotState
  order : Option Order
  owner : Owner
  deferred : Bool
  unit : Option UnitNo
  grantTime : Option Clock
  startTime : Option Clock
  report : Option Report
  deriving DecidableEq, Repr

/-- A FREE slot: no order, no report, owner HOST (R48, R75). -/
def Slot.empty : Slot :=
  { state := .free, order := none, owner := .host, deferred := false, unit := none, grantTime := none,
    startTime := none, report := none }

/-- A unit record and its outputs (R93). -/
structure PowerUnit where
  state : UnitState
  slot : Option SlotNo
  gate : Option GateNo
  cause : Option OutCause
  idleTime : Nat
  timer : Option (UnitTimer × Nat)
  pump : Bool
  manifold : Option GateNo
  deriving DecidableEq, Repr

/-- A unit after cold reset (R109). -/
def PowerUnit.cold : PowerUnit :=
  { state := .off, slot := none, gate := none, cause := none, idleTime := 120, timer := none, pump := false,
    manifold := none }

/-- The parameters of fields 3 to 21 (R11). -/
structure GateParams where
  openingMax : Int
  swap : Swap
  lDir : CountDir
  lZero : Nat
  lScale : Nat
  rDir : CountDir
  rZero : Nat
  rScale : Nat
  deadband : Int
  skewTrim : Int
  skewTrip : Int
  approach : Int
  releaseTime : Nat
  buildSteps : Nat
  buildPressure : Nat
  lockTime : Nat
  quietCount : Nat
  permitted : BitVec 3
  overrideAllowed : Bool
  deriving DecidableEq, Repr

/-- The cold-reset defaults of the table of R11. -/
def GateParams.cold : GateParams :=
  { openingMax := 8000, swap := .normal, lDir := .upCounts, lZero := 0, lScale := 100, rDir := .upCounts, rZero := 0,
    rScale := 100, deadband := 10, skewTrim := 40, skewTrip := 100, approach := 300, releaseTime := 5, buildSteps := 6,
    buildPressure := 120, lockTime := 5, quietCount := 8, permitted := 0b111, overrideAllowed := false }

/-- One hoist end: what its field lines report and what is driven onto them (R2, R6 to R9, R19, R27). A timer that runs
holds its allowance in ms. While the gate is ABSENT the status reads UNKNOWN and nothing uses it (R1). -/
structure EndRec where
  status : EncStatus
  held : Option Int
  reference : Option Int
  silence : Option Nat
  recovery : Nat
  pressure : Option Nat
  valve : Valve
  pinCmd : PinCmd
  fresh : Bool
  stall : Option Nat
  stallRef : Int
  deriving DecidableEq, Repr

/-- An end of an ABSENT gate (R1, R2, R12). -/
def EndRec.cold : EndRec :=
  { status := .unknown, held := none, reference := none, silence := none, recovery := 0, pressure := none,
    valve := .closed, pinCmd := .engage, fresh := false, stall := none, stallRef := 0 }

/-- Order kind, speed and envelope rule copied from the running order (R16). -/
structure RunOrder where
  kind : OrderKind
  speed : Speed
  rule : EnvRule
  deriving DecidableEq, Repr

/-- The items that belong to one move (R16) with the stream record of R153. The trim end's valve, the stall timers and
the phase timer stand with the ends and the gate. -/
structure Move where
  slot : Option SlotNo
  unit : Option UnitNo
  order : Option RunOrder
  orderTarget : Option Int
  target : Option Int
  outcome : Option OrderOutcome
  clamped : Bool
  resetMark : Bool
  trimEnd : Option HoistEnd
  drivenEnd : Option HoistEnd
  entrySkew : Option Int
  quiet : Nat
  tag : Option PointTag
  rate : Option Nat
  final : Bool
  cut : Bool
  hold : Option Nat
  deriving DecidableEq, Repr

/-- No move: every item absent or clear (R16). -/
def Move.empty : Move :=
  { slot := none, unit := none, order := none, orderTarget := none, target := none, outcome := none, clamped := false,
    resetMark := false, trimEnd := none, drivenEnd := none, entrySkew := none, quiet := 0, tag := none, rate := none,
    final := false, cut := false, hold := none }

/-- A trip record (R34). Bit `i` of `further` is the cause with code `i` (R206, sets). -/
structure TripRec where
  first : TripCause
  further : BitVec 7
  concerned : Concern
  time : Clock
  deriving DecidableEq, Repr

/-- A gate record with its motion record (R1, R16). -/
structure GateRec where
  state : GateState
  params : GateParams
  endL : EndRec
  endR : EndRec
  phase : Option (PhaseTimer × Nat)
  move : Move
  levelRequired : Bool
  trip : Option TripRec
  deriving DecidableEq, Repr

/-- A gate after cold reset: ABSENT with default parameters (R1, R14). -/
def GateRec.cold : GateRec :=
  { state := .absent, params := .cold, endL := .cold, endR := .cold, phase := none, move := .empty,
    levelRequired := false, trip := none }

/-- A gauge record (R110). -/
structure GaugeRec where
  state : GaugeState
  low : Int
  high : Int
  level : Option Int
  silence : Option Nat
  recovery : Nat
  deriving DecidableEq, Repr

/-- A gauge after cold reset (R129). -/
def GaugeRec.cold : GaugeRec :=
  { state := .unknown, low := -5000, high := 15000, level := none, silence := some Config.gaugeSilence, recovery := 0 }

/-- A threshold record (R116). -/
structure Threshold where
  signal : Signal
  level : Int
  hysteresis : Int
  enabled : Bool
  state : ThrState
  deriving DecidableEq, Repr

/-- A threshold after cold reset (R129). -/
def Threshold.cold : Threshold :=
  { signal := .up, level := 0, hysteresis := 0, enabled := false, state := .unknown }

/-- The tide monitor (R110, R115, R116, R120, R123, R124). -/
structure Tide where
  up : GaugeRec
  down : GaugeRec
  head : Option Int
  thresholds : Vector Threshold 8
  direction : TideDir
  turnBand : Int
  turnConfirm : Nat
  confirmCount : Nat
  confirmSide : Option Side
  history : List Int
  surgeRate : Int
  surge : Bool
  deriving DecidableEq, Repr

/-- The tide monitor after cold reset (R129). -/
def Tide.cold : Tide :=
  { up := .cold, down := .cold, head := none, thresholds := Vector.replicate 8 .cold, direction := .unknown,
    turnBand := 100, turnConfirm := 10, confirmCount := 0, confirmSide := none, history := [], surgeRate := 300,
    surge := false }

/-- A tide event record (R125). -/
structure TideEvent where
  kind : EventKind
  index : Option ThrNo
  gauge : Option Gauge
  value : Int
  time : Clock
  deriving DecidableEq, Repr

/-- The envelope unit (R130). -/
structure Envelope where
  boundaries : Vector Int 7
  cells : Vector (Vector Int 6) 8
  band : Option BandNo
  deriving DecidableEq, Repr

/-- The envelope unit after cold reset (R142). -/
def Envelope.cold : Envelope :=
  { boundaries := #v[-2000, -1000, -300, 0, 300, 1000, 2000],
    cells := Vector.replicate 8 (Vector.replicate 6 8000), band := none }

/-- A streamed point (R145). -/
structure Point where
  target : Int
  stepTime : Nat
  tag : PointTag
  deriving DecidableEq, Repr

/-- A queue record with its points, oldest first (R143). -/
structure Queue where
  base : Nat
  size : Nat
  readPos : Nat
  limit : Nat
  limitDir : LimitDir
  holdTime : Nat
  points : List Point
  deriving DecidableEq, Repr

/-- A queue after cold reset (R164). -/
def Queue.cold : Queue :=
  { base := 0, size := 0, readPos := 0, limit := 0, limitDir := .falling, holdTime := 30, points := [] }

/-- A step of the stage table; an EMPTY cell is `none` (R165). -/
structure StageStep where
  dwell : Nat
  cells : Vector (Option Int) 6
  deriving DecidableEq, Repr

/-- A step after cold reset (R183). -/
def StageStep.cold : StageStep := { dwell := 0, cells := Vector.replicate 6 none }

/-- The load window (R166). -/
structure LoadWindow where
  firstStep : StepNo
  lastStep : StepNo
  firstGate : GateNo
  lastGate : GateNo
  advance : Advance
  deriving DecidableEq, Repr

/-- The stage table with its load window and load pointer (R165, R166). -/
structure Stage where
  steps : Vector StageStep 16
  window : LoadWindow
  pointer : StepNo × GateNo
  deriving DecidableEq, Repr

/-- The stage table after cold reset (R183). -/
def Stage.cold : Stage :=
  { steps := Vector.replicate 16 .cold,
    window := { firstStep := 0, lastStep := 15, firstGate := 0, lastGate := 5, advance := .gateFirst },
    pointer := (0, 0) }

/-- A sequence definition (R170). -/
structure SequenceDef where
  firstStep : StepNo
  lastStep : StepNo
  repetitions : Nat
  windowFirst : SlotNo
  windowLast : SlotNo
  priority : Nat
  speed : Speed
  rule : EnvRule
  deriving DecidableEq, Repr

/-- The runner record (R171). `offers` holds the slots the table has offered and the runner has not yet claimed (R176),
`attemptsDue` the posting attempts whose event is still to be taken (R173); see log 15. -/
structure Runner where
  state : RunnerState
  step : Option StepNo
  pass : Option Nat
  pointer : Option SlotNo
  outstanding : List (SlotNo × GateNo)
  posted : Option Nat
  anyClamped : Option Bool
  endOutcome : Option EndOutcome
  cause : Option FailCause
  failedSlot : Option SlotNo
  dwell : Option Nat
  offers : List SlotNo
  attemptsDue : Nat
  deriving DecidableEq, Repr

/-- The runner in IDLE (R171, R183). -/
def Runner.idle : Runner :=
  { state := .idle, step := none, pass := none, pointer := none, outstanding := [], posted := none, anyClamped := none,
    endOutcome := none, cause := none, failedSlot := none, dwell := none, offers := [], attemptsDue := 0 }

/-- A notice, with the items of its layout in order (R207). -/
inductive Notice where
  | orderDone (slot : SlotNo) (owner : Owner) (gate : GateNo) (kind : OrderKind) (tag : Nat) (outcome : OrderOutcome)
      (cause : Option TripCause) (finalL finalR : Option Int) (endTime : Clock) (overwritten : Bool)
  | gateTrip (gate : GateNo) (first : TripCause) (concerned : Concern) (slot : Option SlotNo) (time : Clock)
  | unitState (unit : UnitNo) (dir : ServiceDir) (cause : OutCause) (time : Clock)
  | tideEvent (e : TideEvent)
  | profileLevel (gate : GateNo) (level limit : Nat) (dir : LimitDir) (time : Clock)
  | profileMark (gate : GateNo) (slot : SlotNo) (point : Point) (level : Nat) (time : Clock)
  | streamHeld (gate : GateNo) (slot : SlotNo) (target : Option Int) (opening : Int) (time : Clock)
  | sequenceStep (step : StepNo) (pass posted : Nat) (anyClamped : Bool) (time : Clock)
  | sequenceEnd (outcome : EndOutcome) (step : StepNo) (pass : Nat) (cause : Option FailCause)
      (slot : Option SlotNo) (time : Clock)
  | mode (new : DeviceMode) (flavour : Option Flavour) (previous : Option DeviceMode) (cause : ModeCause) (time : Clock)
  deriving DecidableEq, Repr

/-- A reply: the number and the kind code of its request, status, detail byte and data (R196, R205). -/
structure Reply where
  number : Byte
  kind : Byte
  status : Status
  detail : Byte
  data : List Byte
  deriving DecidableEq, Repr

/-- A frame the device sends; its bytes are `TxFrame.bytes`. -/
inductive TxFrame where
  | reply (r : Reply)
  | notice (n : Notice)
  deriving DecidableEq, Repr

/-- The control link port (R195 to R204). -/
structure Link where
  rate : LinkRate
  rx : RxState
  buffer : List Byte
  gap : Option Nat
  replies : List Reply
  notices : List Notice
  line : Option TxFrame
  enables : Vector Bool 10
  noticesLost : Bool
  linkError : Bool
  deriving DecidableEq, Repr

/-- The link port after cold reset, before the COLD_RESET notice is handed over (R197, R200, R202 to R204). -/
def Link.cold (rate : LinkRate) : Link :=
  { rate := rate, rx := .waiting, buffer := [], gap := none, replies := [], notices := [], line := none,
    enables := Vector.replicate 10 true, noticesLost := false, linkError := false }

/-- Levels of the lock-pin inputs of a gate's two channels (1.2). -/
structure PinInputs where
  a : PinPos
  b : PinPos
  deriving DecidableEq, Repr

/-- Levels of a unit's three inputs: READY, ASSERTED, LINED are true (5.1). -/
structure UnitInputs where
  ready : Bool
  fault : Bool
  lined : Bool
  deriving DecidableEq, Repr

/-- The levels the field holds on the device's input pins (11.8). They belong to the field: no reset changes them. -/
structure Inputs where
  pins : Vector PinInputs 6
  units : Vector UnitInputs 3
  deriving DecidableEq, Repr

/-- DESIGN CHOICE (log 5), unsafe: the input levels behind `State.reset`. The spec gives none. -/
def Inputs.assumed : Inputs :=
  { pins := Vector.replicate 6 ⟨.engaged, .engaged⟩, units := Vector.replicate 3 ⟨false, false, false⟩ }

/-- What the event being taken has still to do at its end (log 17); clear between steps. -/
structure Marks where
  roundDue : Bool
  reportDue : Bool
  deriving DecidableEq, Repr

/-- The state of the TQ-6. -/
structure State where
  mode : DeviceMode
  flavour : Option Flavour
  clock : Clock
  resetHeld : Bool
  link : Link
  slots : Vector Slot 24
  lock : Option SlotNo
  arbitration : ArbMode
  units : Vector PowerUnit 3
  startQueue : List UnitNo
  gates : Vector GateRec 6
  tide : Tide
  envelope : Envelope
  queues : Vector Queue 6
  stage : Stage
  definition : Option SequenceDef
  runner : Runner
  inputs : Inputs
  marks : Marks
  freeCount : Nat
  pending : List Instr
  deriving DecidableEq, Repr

/-- No command of the TQ-6 stops the device, so no step ends in a fault: the type has no constructor. -/
inductive Fault where
  deriving DecidableEq, Repr

/-- Why a command has no meaning. -/
inductive Refusal where
  /-- Raised by an arm of `exec` whose command has no meaning yet. Safe: nothing is claimed of it. No arm uses it. -/
  | notModelled (mnemonic : String)
  deriving DecidableEq, Repr

/-- The cold-reset values of every block (R185), before the COLD_RESET notice. -/
def State.coldValues (rate : LinkRate) (inputs : Inputs) : State :=
  { mode := .config, flavour := none, clock := 0, resetHeld := false, link := .cold rate,
    slots := Vector.replicate 24 .empty, lock := none, arbitration := .priority, units := Vector.replicate 3 .cold,
    startQueue := [], gates := Vector.replicate 6 .cold, tide := .cold, envelope := .cold,
    queues := Vector.replicate 6 .cold, stage := .cold, definition := none, runner := .idle, inputs := inputs,
    marks := ⟨false, false⟩, freeCount := 0, pending := [] }

/-- The machine right after cold reset (R185): the cold-reset values, and the MODE notice with cause COLD_RESET on the
line ("this notice is the first frame the device sends"; the line is idle, so it starts at once, R201). The strap level
and the input levels are DESIGN CHOICES (logs 5 and 6). -/
def State.reset : State :=
  let s := State.coldValues .low .assumed
  { s with link := { s.link with line := some (.notice (.mode .config none none .coldReset 0)) } }

end Sys2Proof.Machine
end

