-- ==== Sys2Proof/Machine/Ops.lean ====
section
/-! DEFINITION. The named reads and updates of State: every other file reaches a record through them. With them the
hand-over of notices and replies to the link port (R200 to R202), the marks of an event, and the free orders. -/

namespace Sys2Proof.Machine

/-! ### Reads -/

/-- The record of gate `g`. -/
def State.gate (s : State) (g : GateNo) : GateRec := s.gates.get g
/-- The record of slot `k`. -/
def State.slot (s : State) (k : SlotNo) : Slot := s.slots.get k
/-- The record of unit `u`. -/
def State.unit (s : State) (u : UnitNo) : PowerUnit := s.units.get u
/-- The queue of gate `g`. -/
def State.queue (s : State) (g : GateNo) : Queue := s.queues.get g
/-- The input levels of unit `u`. -/
def State.unitInput (s : State) (u : UnitNo) : UnitInputs := s.inputs.units.get u
/-- The lock-pin input levels of gate `g`. -/
def State.pinInput (s : State) (g : GateNo) : PinInputs := s.inputs.pins.get g

/-- The locked field of slot `k`: the slot is the lock holder (R46). -/
def State.locked (s : State) (k : SlotNo) : Bool := s.lock == some k

/-- The record of an end. -/
def GateRec.hoist (r : GateRec) : HoistEnd → EndRec
  | .l => r.endL
  | .r => r.endR

/-- The end a channel serves under an end swap (R3). -/
def Swap.endOf : Swap → Channel → HoistEnd
  | .normal, .a => .l
  | .normal, .b => .r
  | .swapped, .a => .r
  | .swapped, .b => .l

/-- The channel that serves an end under an end swap (R3). -/
def Swap.channelOf : Swap → HoistEnd → Channel
  | .normal, .l => .a
  | .normal, .r => .b
  | .swapped, .l => .b
  | .swapped, .r => .a

/-- The input level of a channel's lock pin. -/
def PinInputs.level (p : PinInputs) : Channel → PinPos
  | .a => p.a
  | .b => p.b

/-- The lock-pin feedback of an end: the input of the channel that serves it (R2, R3, R13). -/
def State.pin (s : State) (g : GateNo) (e : HoistEnd) : PinPos :=
  (s.pinInput g).level ((s.gate g).params.swap.channelOf e)

/-- The valve setting driven on a channel (R3, R1 for an ABSENT gate). -/
def State.channelValve (s : State) (g : GateNo) (c : Channel) : Valve :=
  ((s.gate g).hoist ((s.gate g).params.swap.endOf c)).valve

/-- The lock-pin command driven on a channel (R3). -/
def State.channelPinCmd (s : State) (g : GateNo) (c : Channel) : PinCmd :=
  ((s.gate g).hoist ((s.gate g).params.swap.endOf c)).pinCmd

/-! ### Updates -/

/-- Replace the record of gate `g`. -/
def State.setGate (s : State) (g : GateNo) (r : GateRec) : State := { s with gates := s.gates.set g.val r g.isLt }
/-- Replace the record of slot `k`. -/
def State.setSlot (s : State) (k : SlotNo) (r : Slot) : State := { s with slots := s.slots.set k.val r k.isLt }
/-- Replace the record of unit `u`. -/
def State.setUnit (s : State) (u : UnitNo) (r : PowerUnit) : State := { s with units := s.units.set u.val r u.isLt }
/-- Replace the queue of gate `g`. -/
def State.setQueue (s : State) (g : GateNo) (q : Queue) : State := { s with queues := s.queues.set g.val q g.isLt }
/-- Replace the link port. -/
def State.setLink (s : State) (l : Link) : State := { s with link := l }
/-- Replace the runner record. -/
def State.setRunner (s : State) (r : Runner) : State := { s with runner := r }
/-- Replace the lock holder. -/
def State.setLock (s : State) (k : Option SlotNo) : State := { s with lock := k }
/-- Replace the start queue. -/
def State.setStartQueue (s : State) (q : List UnitNo) : State := { s with startQueue := q }
/-- Replace the tide monitor. -/
def State.setTide (s : State) (t : Tide) : State := { s with tide := t }
/-- Replace the envelope unit. -/
def State.setEnvelope (s : State) (e : Envelope) : State := { s with envelope := e }
/-- Replace the stage table. -/
def State.setStage (s : State) (t : Stage) : State := { s with stage := t }
/-- Replace the input levels of unit `u`. -/
def State.setUnitInput (s : State) (u : UnitNo) (i : UnitInputs) : State :=
  { s with inputs := { s.inputs with units := s.inputs.units.set u.val i u.isLt } }
/-- Replace the lock-pin input levels of gate `g`. -/
def State.setPinInput (s : State) (g : GateNo) (p : PinInputs) : State :=
  { s with inputs := { s.inputs with pins := s.inputs.pins.set g.val p g.isLt } }
/-- Replace the mode record. -/
def State.setMode (s : State) (m : DeviceMode) (f : Option Flavour) : State := { s with mode := m, flavour := f }

/-- Change the record of gate `g`. -/
def State.modGate (s : State) (g : GateNo) (f : GateRec → GateRec) : State := s.setGate g (f (s.gate g))
/-- Change the record of slot `k`. -/
def State.modSlot (s : State) (k : SlotNo) (f : Slot → Slot) : State := s.setSlot k (f (s.slot k))
/-- Change the record of unit `u`. -/
def State.modUnit (s : State) (u : UnitNo) (f : PowerUnit → PowerUnit) : State := s.setUnit u (f (s.unit u))
/-- Change the runner record. -/
def State.modRunner (s : State) (f : Runner → Runner) : State := s.setRunner (f s.runner)
/-- Change the move items of gate `g`. -/
def State.modMove (s : State) (g : GateNo) (f : Move → Move) : State :=
  s.modGate g fun r => { r with move := f r.move }

/-- Change the record of an end. -/
def GateRec.modEnd (r : GateRec) (e : HoistEnd) (f : EndRec → EndRec) : GateRec :=
  match e with
  | .l => { r with endL := f r.endL }
  | .r => { r with endR := f r.endR }

/-- Change both ends. -/
def GateRec.modEnds (r : GateRec) (f : EndRec → EndRec) : GateRec := { r with endL := f r.endL, endR := f r.endR }

/-! ### Marks of the event being taken (log 17) -/

/-- A change of R77 has been made: a grant round opens at the end of the event (R78). -/
def State.openRound (s : State) : State := { s with marks := { s.marks with roundDue := true } }
/-- The round of the event has been taken. -/
def State.closeRound (s : State) : State := { s with marks := { s.marks with roundDue := false } }
/-- Set or clear the mark of a report that no slot is RUNNING (R73). -/
def State.markReport (s : State) (b : Bool) : State := { s with marks := { s.marks with reportDue := b } }

/-- The number of RUNNING slots (R73). -/
def State.runningCount (s : State) : Nat := (allSlots.filter fun k => (s.slot k).state == .running).length

/-- After a completion or a drop: if no slot is RUNNING, the table has that to report (R58, R61, R73). -/
def State.noteRunning (s : State) : State := if s.runningCount = 0 then s.markReport true else s

/-! ### Free orders -/

/-- Insert an item by its key, after the items with keys at most its own. -/
def insertByKey {α : Type} (k : Nat) (x : α) : List (Nat × α) → List (Nat × α)
  | [] => [(k, x)]
  | (k', y) :: rest => if k < k' then (k, x) :: (k', y) :: rest else (k', y) :: insertByKey k x rest

/-- The items, the first having number `i`, sorted by the free keys of choice `c`. -/
def sortByKey {α : Type} (c : Nat) : Nat → List α → List (Nat × α)
  | _, [] => []
  | i, x :: rest => insertByKey (Config.orderKey c i) x (sortByKey c (i + 1) rest)

/-- FREE VALUE (logs 8, 9): the items in an order nothing is known of. One item or none needs no choice. -/
def freeOrder {α : Type} (c : Nat) (l : List α) : List α :=
  match l with
  | [] => []
  | [x] => [x]
  | x :: y :: rest => (sortByKey c 0 (x :: y :: rest)).map Prod.snd

/-- A free choice has been made. -/
def State.bump (s : State) : State := { s with freeCount := s.freeCount + 1 }

/-! ### The link port: notices, replies, transmit decisions -/

/-- The number of a notice's kind, in the order of the notice codes (R203, R208). -/
def Notice.kindIndex : Notice → Fin 10
  | .orderDone .. => 0
  | .gateTrip .. => 1
  | .unitState .. => 2
  | .tideEvent .. => 3
  | .profileLevel .. => 4
  | .profileMark .. => 5
  | .streamHeld .. => 6
  | .sequenceStep .. => 7
  | .sequenceEnd .. => 8
  | .mode .. => 9

/-- The transmit arbiter's decision: the oldest reply, else the oldest notice, else the line stays idle (R201). -/
def Link.decide (l : Link) : Link :=
  match l.replies with
  | r :: rest => { l with line := some (.reply r), replies := rest }
  | [] =>
    match l.notices with
    | n :: rest => { l with line := some (.notice n), notices := rest }
    | [] => { l with line := none }

/-- The decision made when something is handed over: only while no frame is being sent (R201). -/
def Link.decideIfIdle (l : Link) : Link :=
  match l.line with
  | none => l.decide
  | some _ => l

/-- The link port takes a notice (R202). -/
def Link.take (l : Link) (n : Notice) : Link :=
  if l.enables.get n.kindIndex = false then l
  else if 16 ≤ l.notices.length then { l with noticesLost := true }
  else { l with notices := l.notices ++ [n] }.decideIfIdle

/-- A block hands a notice to the link port (R202). -/
def State.notify (s : State) (n : Notice) : State := s.setLink (s.link.take n)

/-- A reply is placed in the reply area (R199, R200). -/
def Link.place (l : Link) (r : Reply) : Link := { l with replies := l.replies ++ [r] }.decideIfIdle

/-- A reply is placed in the reply area (R199, R200). -/
def State.placeReply (s : State) (r : Reply) : State := s.setLink (s.link.place r)

end Sys2Proof.Machine
end

