-- ==== Sys2Proof/Machine/Flags.lean ====
section
/-! DEFINITION. The conditions and values every decision of the device is drawn from: openings and skew (R4, R5), the
travel checks (R22 to R26, R40), ceilings and limits (R130 to R134), eligibility (R79 to R83), trigger matches (R68),
threshold and direction tests (R117, R121). All are functions of State; none is stored. -/

namespace Sys2Proof.Machine

/-! ### Openings and skew -/

/-- The opening an encoder count stands for: difference, direction, times 10, by the scale toward zero (R4). -/
def openingOf (dir : CountDir) (zeroCount scale count : Nat) : Int :=
  let d : Int := (count : Int) - (zeroCount : Int)
  let d' : Int := match dir with
    | .upCounts => d
    | .downCounts => -d
  (d' * 10).tdiv (scale : Int)

/-- The opening of end `e` for a count, under the mounting map (R3, R4). -/
def GateParams.opening (p : GateParams) (e : HoistEnd) (count : Nat) : Int :=
  match e with
  | .l => openingOf p.lDir p.lZero p.lScale count
  | .r => openingOf p.rDir p.rZero p.rScale count

/-- The gate opening: the mean of the held openings toward zero; absent while an end has none (R5). -/
def GateRec.opening (r : GateRec) : Option Int :=
  match r.endL.held, r.endR.held with
  | some l, some x => some ((l + x).tdiv 2)
  | _, _ => none

/-- The skew: L minus R; absent while an end has no held opening (R5). -/
def GateRec.skew (r : GateRec) : Option Int :=
  match r.endL.held, r.endR.held with
  | some l, some x => some (l - x)
  | _, _ => none

/-- The magnitude of a signed number of millimetres. -/
def mag (x : Int) : Int := if x < 0 then -x else x

/-- The kind of the running order. -/
def GateRec.kind (r : GateRec) : Option OrderKind := r.move.order.map (·.kind)

/-- The compared opening: the driven end's under LEVEL, the gate opening otherwise (R24). -/
def GateRec.compared (r : GateRec) : Option Int :=
  match r.kind, r.move.drivenEnd with
  | some .level, some e => (r.hoist e).held
  | some .level, none => none
  | _, _ => r.opening

/-- A motion state (R16). -/
def GateState.moving : GateState → Bool
  | .releasing | .building | .travel | .held | .settling | .locking => true
  | .absent | .parked | .tripped => false

/-- Present: any state but ABSENT (R1). -/
def GateState.present : GateState → Bool
  | .absent => false
  | _ => true

/-- Both lock pins read a position together (R18, R31). -/
def State.bothPins (s : State) (g : GateNo) (p : PinPos) : Bool := s.pin g .l == p && s.pin g .r == p

/-- The end or ends at which a condition holds, BOTH for both and for neither (R18, R19, R22, R32: the rules name
one end or BOTH; "neither" cannot come about where they ask). -/
def concernOf (l r : Bool) : Concern :=
  match l, r with
  | true, false => .l
  | false, true => .r
  | _, _ => .both

/-- A single end as end concerned. -/
def endConcern : HoistEnd → Concern
  | .l => .l
  | .r => .r

/-- The bit of a cause in a set of causes (R206). -/
def TripCause.index : TripCause → Nat
  | .encoder => 0
  | .lockPin => 1
  | .pressure => 2
  | .stall => 3
  | .skew => 4
  | .overtravel => 5
  | .powerLost => 6

/-- The set with one cause. -/
def TripCause.single (c : TripCause) : BitVec 7 := 1#7 <<< c.index

/-- Membership in a set of causes. -/
def hasCause (set : BitVec 7) (c : TripCause) : Bool := set.getLsbD c.index

/-! ### Travel checks -/

/-- An end lies outside the overtravel limits (R22). -/
def EndRec.overtravel (e : EndRec) (openingMax : Int) : Bool :=
  match e.held with
  | some x => x < -20 || openingMax + 20 < x
  | none => false

/-- The higher end of a skew: L for a positive skew, R for a negative one (R23). -/
def higherEnd (skew : Int) : HoistEnd := if skew < 0 then .r else .l

/-- The skew check: against skew_trip (R23), under LEVEL against the entry skew plus deadband (R40). -/
def GateRec.skewTripped (r : GateRec) : Bool :=
  match r.skew, r.kind with
  | some k, some .level =>
    match r.move.entrySkew with
    | some entry => entry + r.params.deadband < mag k
    | none => false
  | some k, _ => r.params.skewTrip < mag k
  | none, _ => false

/-- The end concerned of a SKEW trip: the higher end (R23), the driven end under LEVEL (R40). -/
def GateRec.skewConcern (r : GateRec) : Concern :=
  match r.kind, r.move.drivenEnd with
  | some .level, some e => endConcern e
  | _, _ => endConcern (higherEnd (r.skew.getD 0))

/-- The overtravel and skew checks of one entry or sample: the trip they call for, if any, with OVERTRAVEL first and
SKEW further when both fail (R22, R23, R40). -/
def GateRec.travelTrip (r : GateRec) : Option (TripCause × BitVec 7 × Concern) :=
  let overL := r.endL.overtravel r.params.openingMax
  let overR := r.endR.overtravel r.params.openingMax
  if overL || overR then
    some (.overtravel, if r.skewTripped then TripCause.skew.single else 0, concernOf overL overR)
  else if r.skewTripped then some (.skew, 0, r.skewConcern)
  else none

/-- The reach test: the compared opening lies within deadband of the target (R24). -/
def GateRec.reached (r : GateRec) : Bool :=
  match r.compared, r.move.target with
  | some c, some t => mag (c - t) ≤ r.params.deadband
  | _, _ => false

/-- The direction at this moment: raise when the target lies above the compared opening (R25). -/
def GateRec.raising (r : GateRec) : Bool :=
  match r.compared, r.move.target with
  | some c, some t => c < t
  | _, _ => false

/-- The rate of a speed class in mm/s (R25). -/
def Speed.rate : Speed → Nat
  | .slow => 2
  | .normal => 5
  | .fast => 8

/-- The rate outside approach: the stream rate for STREAM (R154), the speed class otherwise (R25). -/
def GateRec.baseRate (r : GateRec) : Nat :=
  match r.move.order with
  | some o => if o.kind = .stream then r.move.rate.getD 2 else o.speed.rate
  | none => 2

/-- The rate at this distance: SLOW inside approach, the base rate otherwise (R25). -/
def GateRec.rateNow (r : GateRec) : Nat :=
  match r.compared, r.move.target with
  | some c, some t => if mag (t - c) < r.params.approach then 2 else r.baseRate
  | _, _ => 2

/-- The leading end of a direction: the higher end when raising, the lower when lowering; none for no skew (R26). -/
def leadingEnd (raising : Bool) (skew : Int) : Option HoistEnd :=
  if skew = 0 then none
  else if raising = (0 < skew) then some .l else some .r

/-- Whether end `e` is driven: the driven end alone under LEVEL, else every end but the trim end (R25). -/
def GateRec.drives (r : GateRec) (e : HoistEnd) : Bool :=
  match r.kind with
  | some .level => r.move.drivenEnd == some e
  | _ => r.move.trimEnd != some e

/-- A valve that is driven at a rate (R27). -/
def Valve.driven : Valve → Bool
  | .raise _ => true
  | .lower _ => true
  | _ => false

/-- A sample is quiet when both held openings lie within deadband of the target (R29). -/
def GateRec.isQuiet (r : GateRec) : Bool :=
  match r.endL.held, r.endR.held, r.move.target with
  | some l, some x, some t => decide (mag (l - t) ≤ r.params.deadband) && decide (mag (x - t) ≤ r.params.deadband)
  | _, _, _ => false

/-- An end has a fresh pressure of at least build_pressure (R19). -/
def EndRec.built (e : EndRec) (buildPressure : Nat) : Bool :=
  e.fresh && match e.pressure with
    | some p => buildPressure ≤ p
    | none => false

/-! ### Ceilings and limits -/

/-- The band a head lies in: the number of boundaries at or below it (R130). -/
def bandOf (boundaries : Vector Int 7) (head : Int) : BandNo :=
  if head < boundaries.get 0 then 0
  else if head < boundaries.get 1 then 1
  else if head < boundaries.get 2 then 2
  else if head < boundaries.get 3 then 3
  else if head < boundaries.get 4 then 4
  else if head < boundaries.get 5 then 5
  else if head < boundaries.get 6 then 6
  else 7

/-- The ceiling cell of band `b` for gate `g` (R130). -/
def Envelope.cell (e : Envelope) (b : BandNo) (g : GateNo) : Int := (e.cells.get b).get g

/-- The lowest of a gate's eight cells (R132). -/
def Envelope.lowest (e : Envelope) (g : GateNo) : Int :=
  allBands.foldl (fun m b => min m (e.cell b g)) (e.cell 0 g)

/-- The ceiling in force: the cell of the current band, or the lowest cell while there is none, capped at opening_max
(R132). -/
def State.ceiling (s : State) (g : GateNo) : Int :=
  let v := match s.envelope.band with
    | some b => s.envelope.cell b g
    | none => s.envelope.lowest g
  min v (s.gate g).params.openingMax

/-- The value a limited target is given, or none when R133 does not limit it (R133, R134). -/
def limitedTarget (kind : OrderKind) (rule : EnvRule) (opening ceiling target : Int) : Option Int :=
  if kind = .level then none
  else match rule with
    | .override => none
    | .clamp => if opening < target ∧ ceiling < target then some (max opening (min target ceiling)) else none
    | .refuse => if opening < target ∧ ceiling < target then some opening else none

/-- A target limited to 0 to opening_max (R21). -/
def capTarget (openingMax target : Int) : Int := max 0 (min target openingMax)

/-- The stream rate of a point (R154). -/
def streamRate (distance : Int) (stepTime : Nat) : Nat :=
  let r := (mag distance).toNat * 10 / stepTime
  if r < 2 then 2 else if 8 < r then 8 else r

/-! ### Grant arbitration -/

/-- The gate permits the unit (R80). -/
def GateParams.permits (p : GateParams) (u : UnitNo) : Bool := p.permitted.getLsbD u.val

/-- A unit is free: OFF or IDLE, and no slot has it reserved (R80). -/
def State.unitFree (s : State) (u : UnitNo) : Bool :=
  ((s.unit u).state == .off || (s.unit u).state == .idle) && (s.unit u).slot == none

/-- The slot's order is for gate `g`. -/
def Slot.isFor (k : Slot) (g : GateNo) : Bool :=
  match k.order with
  | some o => o.gate == g
  | none => false

/-- Another slot for gate `g` is GRANTED or RUNNING (R79, condition 5). -/
def State.gateTaken (s : State) (g : GateNo) (k : SlotNo) : Bool :=
  allSlots.any fun j =>
    j != k && (s.slot j).isFor g && ((s.slot j).state == .granted || (s.slot j).state == .running)

/-- The free units a gate permits, in number order. -/
def State.freePermitted (s : State) (g : GateNo) : List UnitNo :=
  allUnits.filter fun u => (s.gate g).params.permits u && s.unitFree u

/-- The six conditions of eligibility (R79). -/
def State.eligible (s : State) (k : SlotNo) : Bool :=
  match (s.slot k).order with
  | none => false
  | some o =>
    (s.slot k).state == .pending && s.mode == .run && (s.gate o.gate).state == .parked
      && (!(s.gate o.gate).levelRequired || o.kind == .level) && !s.gateTaken o.gate k
      && !(s.freePermitted o.gate).isEmpty

/-- The priority value of a slot's order. -/
def Slot.priority (k : Slot) : Nat :=
  match k.order with
  | some o => o.priority
  | none => 0

/-- The slot of a list in number order with the lowest priority value, the first among equals (R82). -/
def State.bestOf (s : State) : List SlotNo → Option SlotNo
  | [] => none
  | k :: rest =>
    match s.bestOf rest with
    | none => some k
    | some j => if (s.slot j).priority < (s.slot k).priority then some j else some k

/-- The winner of a pass (R82). -/
def State.winner (s : State) : Option SlotNo :=
  let l := allSlots.filter s.eligible
  match s.arbitration with
  | .priority => s.bestOf l
  | .slotOrder => l.head?

/-- The unit of the winner: an IDLE one before an OFF one, the lowest number among equals (R83). -/
def State.chooseUnit (s : State) (g : GateNo) : Option UnitNo :=
  match (s.freePermitted g).find? fun u => (s.unit u).state == .idle with
  | some u => some u
  | none => (s.freePermitted g).head?

/-- The unit now starting, if there is one (R95). -/
def State.starting (s : State) : Option UnitNo := allUnits.find? fun u => (s.unit u).state == .starting

/-- The GRANTED slot for a gate, if there is one (R81). -/
def State.grantedFor (s : State) (g : GateNo) : Option SlotNo :=
  allSlots.find? fun k => (s.slot k).state == .granted && (s.slot k).isFor g

/-! ### Reports, triggers, thresholds, direction -/

/-- The slot holds a report whose unread mark is set (R47). -/
def Slot.unread (k : Slot) : Bool :=
  match k.report with
  | some r => r.unread
  | none => false

/-- A trigger matches an event (R68). -/
def Trigger.matches (t : Trigger) (e : TideEvent) : Bool :=
  (t.kind == none || t.kind == some e.kind) && (t.index == none || t.index == e.index)

/-- An ARMED slot whose trigger matches (R69). -/
def Slot.matches (k : Slot) (e : TideEvent) : Bool :=
  k.state == .armed &&
    match k.order with
    | some o =>
      match o.trigger with
      | some t => t.matches e
      | none => false
    | none => false

/-- The side a head sample qualifies on, if it does (R120). -/
def Tide.qualifies (t : Tide) (head : Int) : Option Side :=
  if t.turnBand < head then (if t.direction = .ebb then none else some .ebb)
  else if head < -t.turnBand then (if t.direction = .flood then none else some .flood)
  else none

/-- The sequence window holds slot `k` (R170). -/
def SequenceDef.holds (d : SequenceDef) (k : SlotNo) : Bool := d.windowFirst ≤ k && k ≤ d.windowLast

/-- The slots of the window in number order. -/
def SequenceDef.window (d : SequenceDef) : List SlotNo := allSlots.filter d.holds

/-! ### The profile pool -/

/-- The queue's level (R143). -/
def Queue.level (q : Queue) : Nat := q.points.length

/-- The pool cell `i` places on from the read position, wrapping within the partition; the base for a queue of size 0
(R143). -/
def Queue.cellAt (q : Queue) (i : Nat) : Nat :=
  if q.size = 0 then q.base else q.base + (q.readPos - q.base + i) % q.size

/-- The write position (R143). -/
def Queue.writePos (q : Queue) : Nat := q.cellAt q.level

/-- The point a queue holds in pool cell `c`, if any (R143). -/
def Queue.pointIn (q : Queue) (c : Nat) : Option Point :=
  if q.size = 0 ∨ c < q.base ∨ q.base + q.size ≤ c then none
  else q.points[(c - q.base + q.size - (q.readPos - q.base)) % q.size]?

/-- The point held in pool cell `c` (R143, R145). -/
def State.poolCell (s : State) (c : Nat) : Option Point :=
  allGates.findSome? fun g => (s.queue g).pointIn c

/-- Two partitions share a cell (R144). -/
def Queue.overlaps (q : Queue) (base size : Nat) : Bool :=
  q.size != 0 && decide (base < q.base + q.size) && decide (q.base < base + size)

end Sys2Proof.Machine
end

