-- ==== Sys2Proof/Machine/Encode.lean ====
section
/-! DEFINITION. What the device puts on the line: codes and encodings (R205, R206), layouts (R207, R208), the CRC
(R198) and the frame (R196). Codes that R206 does not tabulate follow the order in which the owning rule lists the
values ("the values numbered from 0 in the order the owning rule lists them"); log 16. -/

namespace Sys2Proof.Machine

/-! ### Numbers -/

/-- A one-byte number. -/
def encU8 (x : Nat) : List Byte := [BitVec.ofNat 8 x]

/-- A two-byte word, high byte first (R206). -/
def encWord (w : BitVec 16) : List Byte := [w.extractLsb' 8 8, w.extractLsb' 0 8]

/-- A two-byte unsigned number (R206). -/
def encU16 (x : Nat) : List Byte := encWord (BitVec.ofNat 16 x)

/-- A number of millimetres: two bytes, signed (R206); beyond them a free value (log 10). -/
def encMm (x : Int) : List Byte :=
  if -32768 ≤ x ∧ x ≤ 32767 then encWord (BitVec.ofInt 16 x) else encWord (Config.mmOutOfRange x)

/-- A weir-clock time (R206). -/
def encClock (c : Clock) : List Byte :=
  [c.extractLsb' 24 8, c.extractLsb' 16 8, c.extractLsb' 8 8, c.extractLsb' 0 8]

/-- A flag or mark (R206). -/
def encFlag (b : Bool) : List Byte := [if b then 1 else 0]

/-- An optional field: a presence byte, then the value if there is one (R206). -/
def encOpt {α : Type} (f : α → List Byte) : Option α → List Byte
  | none => [0]
  | some x => 1 :: f x

/-! ### Coded values -/

/-- R205. -/
def Status.code : Status → Nat
  | .ok => 0 | .unknownKind => 1 | .badLength => 2 | .badValue => 3 | .wrongMode => 4 | .resetting => 5
  | .gateAbsent => 6 | .slotBusy => 7 | .notPermitted => 8 | .noQueue => 9 | .queueFull => 10 | .notEmpty => 11
  | .overlap => 12 | .streamActive => 13 | .tripPersists => 14 | .notTripped => 15 | .nothingToStop => 16
  | .sequenceActive => 17 | .noSequence => 18 | .unitBusy => 19 | .faultPresent => 20 | .noGates => 21

/-- R206. -/
def OrderOutcome.code : OrderOutcome → Nat
  | .reached => 0 | .clamped => 1 | .envelope => 2 | .unsettled => 3 | .stopped => 4 | .cut => 5 | .starved => 6
  | .tripped => 7

/-- R206. -/
def FailCause.code : FailCause → Nat
  | .outcome o => o.code | .interfered => 8 | .cellRefused => 9 | .windowTooSmall => 10

/-- R206. -/
def GateState.code : GateState → Nat
  | .absent => 0 | .parked => 1 | .releasing => 2 | .building => 3 | .travel => 4 | .held => 5 | .settling => 6
  | .locking => 7 | .tripped => 8

/-- R206. -/
def UnitState.code : UnitState → Nat
  | .off => 0 | .startQueued => 1 | .starting => 2 | .idle => 3 | .liningUp => 4 | .assigned => 5 | .outOfService => 6

/-- R206. -/
def SlotState.code : SlotState → Nat
  | .free => 0 | .armed => 1 | .pending => 2 | .granted => 3 | .running => 4 | .done => 5

/-- R206. -/
def DeviceMode.code : DeviceMode → Nat
  | .config => 0 | .run => 1 | .draining => 2 | .resetting => 3

/-- R206. -/
def EventKind.code : EventKind → Nat
  | .rise => 0 | .fall => 1 | .turnEbb => 2 | .turnFlood => 3 | .surge => 4 | .gaugeFault => 5 | .gaugeOk => 6

/-- R207: HOLD 0, STOP 1. -/
def Flavour.code : Flavour → Nat
  | .hold => 0 | .stop => 1

/-- R207. -/
def OrderKind.code : OrderKind → Nat
  | .set => 0 | .stream => 1 | .level => 2

/-- R207. -/
def Speed.code : Speed → Nat
  | .slow => 0 | .normal => 1 | .fast => 2

/-- R207. -/
def EnvRule.code : EnvRule → Nat
  | .clamp => 0 | .refuse => 1 | .override => 2

/-- R207. -/
def Rep.code : Rep → Nat
  | .once => 0 | .rearm => 1

/-- R207: HOST 0, SEQUENCE 1. -/
def Owner.code : Owner → Nat
  | .host => 0 | .sequence => 1

/-- R207: L 0, R 1, BOTH 2. -/
def Concern.code : Concern → Nat
  | .l => 0 | .r => 1 | .both => 2

/-- R207. -/
def OutCause.code : OutCause → Nat
  | .startFailed => 0 | .lineUp => 1 | .fault => 2 | .maintenance => 3

/-- R207: OUT 0, IN 1. -/
def ServiceDir.code : ServiceDir → Nat
  | .out => 0 | .into => 1

/-- R207: FALLING 0, RISING 1. -/
def LimitDir.code : LimitDir → Nat
  | .falling => 0 | .rising => 1

/-- R207. -/
def EndOutcome.code : EndOutcome → Nat
  | .complete => 0 | .failed => 1 | .aborted => 2

/-- R207. -/
def ModeCause.code : ModeCause → Nat
  | .request => 0 | .drainEnd => 1 | .warmReset => 2 | .coldReset => 3

/-- Order of R6 (log 16). -/
def EncStatus.code : EncStatus → Nat
  | .unknown => 0 | .good => 1 | .faulted => 2

/-- Order of R15 (log 16). -/
def pinCode : PinPos → Nat
  | .engaged => 0 | .withdrawn => 1 | .between => 2

/-- R207: UP 0, DOWN 1. -/
def gaugeCode : Gauge → Nat
  | .up => 0 | .down => 1

/-- Order of R110 (log 16). -/
def GaugeState.code : GaugeState → Nat
  | .unknown => 0 | .good => 1 | .faulted => 2

/-- Order of R116 (log 16). -/
def Signal.code : Signal → Nat
  | .up => 0 | .down => 1 | .head => 2

/-- Order of R116 (log 16). -/
def ThrState.code : ThrState → Nat
  | .unknown => 0 | .below => 1 | .above => 2

/-- Order of R120 (log 16). -/
def TideDir.code : TideDir → Nat
  | .unknown => 0 | .ebb => 1 | .flood => 2

/-- Order of R120 (log 16). -/
def Side.code : Side → Nat
  | .ebb => 0 | .flood => 1

/-- Order of R145 (log 16). -/
def PointTag.code : PointTag → Nat
  | .plain => 0 | .mark => 1 | .last => 2

/-- Order of R166 (log 16). -/
def Advance.code : Advance → Nat
  | .gateFirst => 0 | .stepFirst => 1

/-- Order of R171 (log 16). -/
def RunnerState.code : RunnerState → Nat
  | .idle => 0 | .posting => 1 | .step => 2 | .dwell => 3 | .windingDown => 4

/-- Order of R91 (log 16). -/
def ArbMode.code : ArbMode → Nat
  | .priority => 0 | .slotOrder => 1

/-! ### Layouts -/

/-- A trigger: event kind with ANY 7, threshold index with ANY 8 (R206, R207). -/
def encTrigger (t : Trigger) : List Byte :=
  encU8 ((t.kind.map EventKind.code).getD 7) ++ encU8 ((t.index.map Fin.val).getD 8)

/-- An order (R207). -/
def encOrder (o : Order) : List Byte :=
  encU8 o.kind.code ++ encU8 o.gate.val ++ encOpt encMm o.target ++ encU8 o.speed.code ++ encU8 o.priority
    ++ encU8 o.rule.code ++ encOpt encTrigger o.trigger ++ encU8 o.rep.code ++ encU16 o.tag

/-- A trip cause as one byte (R206). -/
def encCause (c : TripCause) : List Byte := encU8 c.index

/-- A unit number as one byte. -/
def encUnit (u : UnitNo) : List Byte := encU8 u.val

/-- A slot number as one byte. -/
def encSlotNo (k : SlotNo) : List Byte := encU8 k.val

/-- A report (R207). -/
def encReport (r : Report) : List Byte :=
  encU8 r.outcome.code ++ encOpt encCause r.cause ++ encOpt encMm r.finalL ++ encOpt encMm r.finalR
    ++ encOpt encClock r.startTime ++ encClock r.endTime ++ encOpt encUnit r.unitUsed ++ encFlag r.unread
    ++ encFlag r.overwritten

/-- An event record (R207). -/
def encEvent (e : TideEvent) : List Byte :=
  encU8 e.kind.code ++ encOpt (fun i : ThrNo => encU8 i.val) e.index ++ encOpt (fun g => encU8 (gaugeCode g)) e.gauge
    ++ encMm e.value ++ encClock e.time

/-- A point: target, step time, tag (R206). -/
def encPoint (p : Point) : List Byte := encMm p.target ++ encU16 p.stepTime ++ encU8 p.tag.code

/-- The code of a notice: 41 to 4A hexadecimal (R208). -/
def Notice.code (n : Notice) : Byte := BitVec.ofNat 8 (0x41 + n.kindIndex.val)

/-- The body of a notice (R207). -/
def Notice.body : Notice → List Byte
  | .orderDone slot owner gate kind tag outcome cause finalL finalR endTime overwritten =>
    encSlotNo slot ++ encU8 owner.code ++ encU8 gate.val ++ encU8 kind.code ++ encU16 tag ++ encU8 outcome.code
      ++ encOpt encCause cause ++ encOpt encMm finalL ++ encOpt encMm finalR ++ encClock endTime ++ encFlag overwritten
  | .gateTrip gate first concerned slot time =>
    encU8 gate.val ++ encCause first ++ encU8 concerned.code ++ encOpt encSlotNo slot ++ encClock time
  | .unitState unit dir cause time => encUnit unit ++ encU8 dir.code ++ encU8 cause.code ++ encClock time
  | .tideEvent e => encEvent e
  | .profileLevel gate level limit dir time =>
    encU8 gate.val ++ encU8 level ++ encU8 limit ++ encU8 dir.code ++ encClock time
  | .profileMark gate slot point level time =>
    encU8 gate.val ++ encSlotNo slot ++ encPoint point ++ encU8 level ++ encClock time
  | .streamHeld gate slot target opening time =>
    encU8 gate.val ++ encSlotNo slot ++ encOpt encMm target ++ encMm opening ++ encClock time
  | .sequenceStep step pass posted anyClamped time =>
    encU8 step.val ++ encU8 pass ++ encU8 posted ++ encFlag anyClamped ++ encClock time
  | .sequenceEnd outcome step pass cause slot time =>
    encU8 outcome.code ++ encU8 step.val ++ encU8 pass ++ encOpt (fun c : FailCause => encU8 c.code) cause
      ++ encOpt encSlotNo slot ++ encClock time
  | .mode new flavour previous cause time =>
    encU8 new.code ++ encOpt (fun f : Flavour => encU8 f.code) flavour
      ++ encOpt (fun m : DeviceMode => encU8 m.code) previous ++ encU8 cause.code ++ encClock time

/-- The body of a reply: kind code, status, detail byte, data (R205). -/
def Reply.body (r : Reply) : List Byte := [r.kind, BitVec.ofNat 8 r.status.code, r.detail] ++ r.data

/-! ### CRC and frame -/

/-- One bit of the CRC register: shift left, with the polynomial when a one leaves (R198). -/
def crcBit (c : BitVec 16) : BitVec 16 := if c.getLsbD 15 then (c <<< 1) ^^^ 0x1021#16 else c <<< 1

/-- One byte, most significant bit first (R198). -/
def crcByte (c : BitVec 16) (b : Byte) : BitVec 16 :=
  crcBit (crcBit (crcBit (crcBit (crcBit (crcBit (crcBit (crcBit (c ^^^ (b.zeroExtend 16 <<< 8)))))))))

/-- The CRC of a run of bytes: register at all ones, no final inversion (R198). -/
def crc16 (bytes : List Byte) : BitVec 16 := bytes.foldl crcByte 0xFFFF#16

/-- A frame: start byte, body length, kind, number, body, CRC high byte first (R196). -/
def frameBytes (kind number : Byte) (body : List Byte) : List Byte :=
  let covered := [BitVec.ofNat 8 body.length, kind, number] ++ body
  0xA7#8 :: covered ++ encWord (crc16 covered)

/-- The bytes of a frame the device sends; a notice carries request number 0 (R196). -/
def TxFrame.bytes : TxFrame → List Byte
  | .reply r => frameBytes 0x80#8 r.number r.body
  | .notice n => frameBytes n.code 0 n.body

/-! ### Reply data -/

/-- The set of present gates (R194, R206). -/
def State.presentSet (s : State) : Nat :=
  (allGates.map fun g => if (s.gate g).state.present then 2 ^ g.val else 0).sum

/-- The number of slots in a state (R194). -/
def State.countSlots (s : State) (st : SlotState) : Nat := (allSlots.filter fun k => (s.slot k).state == st).length

/-- The mode and the drain flavour (R186, R194). -/
def State.encMode (s : State) : List Byte :=
  encU8 s.mode.code ++ encOpt (fun f : Flavour => encU8 f.code) s.flavour

/-- The data of STATUS (R194, R208); each unit's state is followed by its cause as an optional field (log 16). -/
def State.encStatus (s : State) : List Byte :=
  s.encMode ++ encClock s.clock ++ encU8 s.presentSet
    ++ (allGates.map fun g => encU8 (s.gate g).state.code).flatten
    ++ (allUnits.map fun u => encU8 (s.unit u).state.code
          ++ encOpt (fun c : OutCause => encU8 c.code) (s.unit u).cause).flatten
    ++ encU8 s.runner.state.code
    ++ encU8 (s.countSlots .free) ++ encU8 (s.countSlots .armed) ++ encU8 (s.countSlots .pending)
    ++ encU8 (s.countSlots .granted) ++ encU8 (s.countSlots .running) ++ encU8 (s.countSlots .done)
    ++ encFlag s.link.noticesLost ++ encFlag s.link.linkError ++ [1, 6, Config.siliconRevision]

/-- A trip record: first cause, further causes, end concerned, trip time (R15). -/
def encTrip (t : TripRec) : List Byte :=
  encCause t.first ++ encU8 t.further.toNat ++ encU8 t.concerned.code ++ encClock t.time

/-- The data of READ_GATE (R15). An ABSENT gate has every optional item absent. -/
def State.encGate (s : State) (g : GateNo) : List Byte :=
  let r := s.gate g
  let has {α : Type} (x : Option α) : Option α := if r.state.present then x else none
  encU8 r.state.code ++ encOpt encMm (has r.endL.held) ++ encOpt encMm (has r.endR.held)
    ++ encOpt encMm (has r.opening) ++ encOpt encMm (has r.skew) ++ encOpt encMm (has r.move.target)
    ++ encOpt encSlotNo (has r.move.slot) ++ encOpt encUnit (has r.move.unit) ++ encFlag r.levelRequired
    ++ encOpt (fun c : EncStatus => encU8 c.code) (has (some r.endL.status))
    ++ encOpt (fun c : EncStatus => encU8 c.code) (has (some r.endR.status))
    ++ encOpt encU16 (has r.endL.pressure) ++ encOpt encU16 (has r.endR.pressure)
    ++ encOpt (fun p => encU8 (pinCode p)) (has (some (s.pin g .l)))
    ++ encOpt (fun p => encU8 (pinCode p)) (has (some (s.pin g .r)))
    ++ encOpt encTrip (has r.trip)

/-- The data of READ_SLOT (R63, R208), with the locked field as given. -/
def encSlot (k : Slot) (locked : Bool) : List Byte :=
  encU8 k.state.code ++ encU8 k.owner.code ++ encFlag locked ++ encFlag k.deferred ++ encOpt encOrder k.order
    ++ encOpt encUnit k.unit ++ encOpt encClock k.grantTime ++ encOpt encClock k.startTime ++ encOpt encReport k.report

/-- One entry of LIST_SLOTS (R67). -/
def encListed (k : Slot) (locked : Bool) : List Byte :=
  encU8 k.state.code ++ encU8 k.owner.code ++ encOpt (fun o : Order => encU8 o.gate.val) k.order
    ++ encOpt (fun o : Order => encU8 o.kind.code) k.order ++ encFlag locked ++ encFlag k.unread

/-- The data of LIST_SLOTS (R67). -/
def State.encSlots (s : State) : List Byte :=
  (allSlots.map fun k => encListed (s.slot k) (s.locked k)).flatten

/-- One threshold of READ_TIDE: seven bytes (R128, R208). -/
def encThreshold (t : Threshold) : List Byte :=
  encU8 t.signal.code ++ encMm t.level ++ encMm t.hysteresis ++ encFlag t.enabled ++ encU8 t.state.code

/-- The data of READ_TIDE (R128). -/
def State.encTide (s : State) : List Byte :=
  let t := s.tide
  encU8 t.up.state.code ++ encU8 t.down.state.code ++ encOpt encMm t.up.level ++ encOpt encMm t.down.level
    ++ encOpt encMm t.head ++ encOpt (fun b : BandNo => encU8 b.val) s.envelope.band ++ encU8 t.direction.code
    ++ encU8 t.confirmCount ++ encOpt (fun x : Side => encU8 x.code) t.confirmSide
    ++ (allThresholds.map fun i => encThreshold (t.thresholds.get i)).flatten
    ++ encU8 t.history.length ++ encFlag t.surge

/-- The data of READ_QUEUE: nine bytes (R152, R208). -/
def encQueue (q : Queue) : List Byte :=
  encU8 q.base ++ encU8 q.size ++ encU8 q.level ++ encU8 q.readPos ++ encU8 q.writePos ++ encU8 q.limit
    ++ encU8 q.limitDir.code ++ encU16 q.holdTime

/-- A stage table cell: the target, or FFFF for EMPTY (R206). -/
def encCell : Option Int → List Byte
  | none => encU16 0xFFFF
  | some x => encMm x

/-- The load pointer: step and gate (R208). -/
def encPointer (p : StepNo × GateNo) : List Byte := encU8 p.1.val ++ encU8 p.2.val

/-- The data of READ_CELLS (R168, R208). -/
def encCells (t : Stage) (i : StepNo) : List Byte :=
  encU16 (t.steps.get i).dwell ++ (allGates.map fun g => encCell ((t.steps.get i).cells.get g)).flatten
    ++ encU8 t.window.firstStep.val ++ encU8 t.window.lastStep.val ++ encU8 t.window.firstGate.val
    ++ encU8 t.window.lastGate.val ++ encU8 t.window.advance.code ++ encPointer t.pointer

end Sys2Proof.Machine
end

