-- ==== Sys2Proof/Machine/Units.lean ====
section
/-! DEFINITION. The power unit controllers and the starter (chapter 5), the reservation a grant makes (R84, R96) and
its end (R56, R87). Every entry into a unit state sets the outputs and the timer of that state (R93). -/

namespace Sys2Proof.Machine

/-! ### The states with their outputs and timers (R93) -/

/-- OFF (R93). -/
def PowerUnit.toOff (r : PowerUnit) : PowerUnit :=
  { r with state := .off, slot := none, gate := none, cause := none, timer := none, pump := false, manifold := none }

/-- START_QUEUED for a slot and gate (R93). -/
def PowerUnit.toQueued (r : PowerUnit) (k : SlotNo) (g : GateNo) : PowerUnit :=
  { r with state := .startQueued, slot := some k, gate := some g, cause := none, timer := none, pump := false,
           manifold := none }

/-- STARTING, with the reservation it has (R93, R97). -/
def PowerUnit.toStarting (r : PowerUnit) : PowerUnit :=
  { r with state := .starting, cause := none, timer := some (.start, Config.startTime), pump := true,
           manifold := none }

/-- IDLE, its idle timer started at idle_time (R93, R103). -/
def PowerUnit.toIdle (r : PowerUnit) : PowerUnit :=
  { r with state := .idle, slot := none, gate := none, cause := none, timer := some (.idle, r.idleTime * 1000),
           pump := true, manifold := none }

/-- LINING_UP toward a gate for a slot (R93, R100). -/
def PowerUnit.toLiningUp (r : PowerUnit) (k : SlotNo) (g : GateNo) : PowerUnit :=
  { r with state := .liningUp, slot := some k, gate := some g, cause := none,
           timer := some (.lineUp, Config.lineUpTime), pump := true, manifold := some g }

/-- ASSIGNED to a gate (R93, R100). -/
def PowerUnit.toAssigned (r : PowerUnit) (g : GateNo) : PowerUnit :=
  { r with state := .assigned, slot := none, gate := some g, cause := none, timer := none, pump := true,
           manifold := some g }

/-- OUT_OF_SERVICE with a cause (R93, R105). -/
def PowerUnit.toOut (r : PowerUnit) (c : OutCause) : PowerUnit :=
  { r with state := .outOfService, slot := none, gate := none, cause := some c, timer := none, pump := false,
           manifold := none }

/-- The timer `t` of the unit's state runs. -/
def PowerUnit.runs (r : PowerUnit) (t : UnitTimer) : Bool :=
  match r.timer with
  | some (t', _) => t' == t
  | none => false

/-! ### Reservation and return -/

/-- A unit goes OUT_OF_SERVICE, with its UNIT_STATE notice (R105). -/
def State.takeOut (s : State) (u : UnitNo) (c : OutCause) : State :=
  (s.modUnit u fun r => r.toOut c).notify (.unitState u .out c s.clock)

/-- The slot as a returned grant leaves it: PENDING, unit and grant time absent (R56). -/
def Slot.returned (k : Slot) : Slot := { k with state := .pending, unit := none, grantTime := none }

/-- A grant returned by its unit: the GRANTED slot goes back to PENDING and a round opens (R56). -/
def State.returnGrant (s : State) (k : SlotNo) : State :=
  if (s.slot k).state = .granted then (s.modSlot k Slot.returned).openRound else s

/-- Return the grant of a reserved slot, if there is one. -/
def State.returnReserved (s : State) (k : Option SlotNo) : State :=
  match k with
  | some k => s.returnGrant k
  | none => s

/-- The starter passes the start to the head of the queue. A head whose fault input is ASSERTED goes OUT_OF_SERVICE, the
starter passes on, and its slot is returned (R95, R97). -/
def State.passStarter : List UnitNo → State → State
  | [], s => s.setStartQueue []
  | u :: rest, s =>
    if (s.unitInput u).fault then
      (State.passStarter rest (s.takeOut u .fault)).returnReserved (s.unit u).slot
    else (s.setStartQueue rest).modUnit u PowerUnit.toStarting

/-- A start request for a unit of state OFF (R95, R97): the unit takes the reservation, then enters STARTING or
START_QUEUED, or goes OUT_OF_SERVICE on a standing fault. -/
def State.requestStart (s : State) (u : UnitNo) (k : SlotNo) (g : GateNo) : State :=
  match s.starting, (s.unitInput u).fault with
  | none, false => s.modUnit u fun r => { r with slot := some k, gate := some g }.toStarting
  | some _, false => (s.modUnit u fun r => r.toQueued k g).setStartQueue (s.startQueue ++ [u])
  | none, true => (State.passStarter s.startQueue (s.takeOut u .fault)).returnGrant k
  | some _, true => (s.takeOut u .fault).returnGrant k

/-- A grant reaches the controller of the chosen unit (R96). -/
def State.grantUnit (s : State) (u : UnitNo) (k : SlotNo) (g : GateNo) : State :=
  match (s.unit u).state with
  | .off => s.requestStart u k g
  | .idle => s.modUnit u fun r => r.toLiningUp k g
  | _ => s

/-- An abandoned grant hands its unit back; a round opens (R57, R87). -/
def State.handBack (s : State) (u : UnitNo) : State :=
  match (s.unit u).state with
  | .startQueued => ((s.modUnit u PowerUnit.toOff).setStartQueue (s.startQueue.filter (· != u))).openRound
  | .starting => (s.modUnit u fun r => { r with slot := none, gate := none }).openRound
  | .liningUp => (s.modUnit u PowerUnit.toIdle).openRound
  | _ => s.openRound

/-- Hand back the unit that a GRANTED slot had reserved; nothing for a slot in another state (R57). -/
def State.handBackOf (s : State) (old : Slot) : State :=
  match old.state, old.unit with
  | .granted, some u => s.handBack u
  | .granted, none => s.openRound
  | _, _ => s

/-- A gate releases its unit: ASSIGNED to IDLE, and a round opens (R102). A unit in another state gets no release. -/
def State.releaseUnit (s : State) (u : Option UnitNo) : State :=
  match u with
  | none => s
  | some u => if (s.unit u).state = .assigned then (s.modUnit u PowerUnit.toIdle).openRound else s

/-! ### Events of a unit -/

/-- Ready feedback of a STARTING unit (R98). -/
def State.unitReady (s : State) (u : UnitNo) : State :=
  let r := s.unit u
  let s' := match r.slot, r.gate with
    | some k, some g => s.modUnit u fun r => r.toLiningUp k g
    | _, _ => (s.modUnit u PowerUnit.toIdle).openRound
  State.passStarter s'.startQueue s'

/-- The start timer of a STARTING unit expires (R99). -/
def State.startFailed (s : State) (u : UnitNo) : State :=
  let s' := s.takeOut u .startFailed
  (State.passStarter s'.startQueue s').returnReserved (s.unit u).slot

/-- The line-up timer of a LINING_UP unit expires (R101). -/
def State.lineUpFailed (s : State) (u : UnitNo) : State := (s.takeOut u .lineUp).returnReserved (s.unit u).slot

/-- The idle timer of an IDLE unit expires; no round opens (R103). -/
def State.idleStopped (s : State) (u : UnitNo) : State := s.modUnit u PowerUnit.toOff

/-- A fault of a unit that is neither OFF, OUT_OF_SERVICE nor ASSIGNED (R104). A unit that an abandonment has just taken
from START_QUEUED to OFF is OFF to the fault: the model follows R97 and R104 there, not the last row of R89's table
(DEDUCED, log 30). -/
def State.unitFault (s : State) (u : UnitNo) : State :=
  let r := s.unit u
  let s' := s.takeOut u .fault
  match r.state with
  | .startQueued => (s'.setStartQueue (s'.startQueue.filter (· != u))).returnReserved r.slot
  | .starting => (State.passStarter s'.startQueue s').returnReserved r.slot
  | .liningUp => s'.returnReserved r.slot
  | .idle => s'
  | _ => s

end Sys2Proof.Machine
end

