-- ==== Sys2Proof/Machine/Arbiter.lean ====
section
/-! DEFINITION. Grant rounds (chapter 4). -/

namespace Sys2Proof.Machine

/-- The slot as a grant leaves it (R53). -/
def Slot.grantedBy (k : Slot) (u : UnitNo) (t : Clock) : Slot :=
  { k with state := .granted, unit := some u, grantTime := some t }

/-- A grant: the slot becomes GRANTED, then the unit takes the reservation (R84). -/
def State.grant (s : State) (k : SlotNo) (g : GateNo) (u : UnitNo) : State :=
  (s.modSlot k fun r => r.grantedBy u s.clock).grantUnit u k g

/-- One pass of a round: the winner and its unit, if there are any (R76, R82, R83). -/
def State.choice (s : State) : Option (SlotNo × GateNo × UnitNo) :=
  match s.winner with
  | none => none
  | some k =>
    match (s.slot k).order with
    | none => none
    | some o =>
      match s.chooseUnit o.gate with
      | none => none
      | some u => some (k, o.gate, u)

/-- The passes of a round, at most `n`. Each pass that grants takes one unit out of the free ones, so three passes are
as many as a round can make (R85). -/
def State.passes : Nat → State → State
  | 0, s => s
  | n + 1, s =>
    match s.choice with
    | none => s
    | some (k, g, u) => State.passes n (s.grant k g u)

/-- The round of an event, taken after the event's own changes, if one of them opened it (R76, R78). -/
def State.takeRound (s : State) : State :=
  if s.marks.roundDue then (State.passes 3 s).closeRound else s

end Sys2Proof.Machine
end

