-- ==== Sys2Proof/Machine/Table.lean ====
section
/-! DEFINITION. The claims on a slot of the order table (chapter 3): completions and reports, drops, freeing, writing,
the lock, and the matching of tide events. -/

namespace Sys2Proof.Machine

/-! ### Offers to the runner -/

/-- The runner has slot `k` outstanding (R171). -/
def Runner.has (r : Runner) (k : SlotNo) : Bool := r.outstanding.any fun e => e.1 == k

/-- The table offers the runner a DONE slot of its outstanding list that is not locked (R64, R71, R176). -/
def State.offer (s : State) (k : SlotNo) : State :=
  if (s.slot k).state = .done ∧ (s.slot k).owner = .sequence ∧ s.runner.has k = true ∧ s.locked k = false then
    s.modRunner fun r => { r with offers := r.offers ++ [k] }
  else s

/-! ### Completions (R55, R58 to R60, R62) -/

/-- What a completion hands over beside the outcome. -/
structure Ending where
  outcome : OrderOutcome
  cause : Option TripCause
  finalL : Option Int
  finalR : Option Int
  startTime : Option Clock
  unitUsed : Option UnitNo
  deriving DecidableEq, Repr

/-- The report a completion forms; it is marked overwritten where it replaces an unread one (R58 to R60). -/
def Slot.newReport (k : Slot) (e : Ending) (t : Clock) : Report :=
  { outcome := e.outcome, cause := e.cause, finalL := e.finalL, finalR := e.finalR, startTime := e.startTime,
    endTime := t, unitUsed := e.unitUsed, unread := true,
    overwritten := k.unread }

/-- The slot after a completion: DONE for ONCE, ARMED for REARM, with the new report (R59). -/
def Slot.completed (k : Slot) (o : Order) (e : Ending) (t : Clock) : Slot :=
  { k with state := match o.rep with
             | .once => .done
             | .rearm => .armed,
           deferred := false, unit := none, grantTime := none, startTime := none, report := some (k.newReport e t) }

/-- A completion forms the report, gives the slot its next state, hands over ORDER_DONE, and offers a runner slot that
is now DONE (R59, R62, R176). -/
def State.complete (s : State) (k : SlotNo) (e : Ending) : State :=
  let r := s.slot k
  match r.order with
  | none => s
  | some o =>
    ((s.setSlot k (r.completed o e s.clock)).notify
      (.orderDone k r.owner o.gate o.kind o.tag e.outcome e.cause e.finalL e.finalR s.clock (r.newReport e s.clock).overwritten)).offer k

/-- The gate completes its RUNNING slot (R58), and the table looks whether any slot is RUNNING (R73). -/
def State.completeRunning (s : State) (k : SlotNo) (o : OrderOutcome) (cause : Option TripCause)
    (finalL finalR : Option Int) : State :=
  let r := s.slot k
  if r.state = .running then
    (s.complete k { outcome := o, cause := cause, finalL := finalL, finalR := finalR, startTime := r.startTime,
                    unitUsed := r.unit }).noteRunning
  else s

/-- A GRANTED slot completes without a move and its grant is abandoned (R57, R60). -/
def State.completeGranted (s : State) (k : SlotNo) (o : OrderOutcome) (cause : Option TripCause)
    (finalL finalR : Option Int) : State :=
  let r := s.slot k
  if r.state = .granted then
    (s.complete k { outcome := o, cause := cause, finalL := finalL, finalR := finalR, startTime := none,
                    unitUsed := none }).handBackOf r
  else s

/-! ### Freeing and writing a slot -/

/-- The lock of a slot is released without acting on a deferred trigger (R50, R51). -/
def State.dropLock (s : State) (k : SlotNo) : State := if s.lock = some k then s.setLock none else s

/-- The runner waits in POSTING and slot `k` belongs to its window (R173). -/
def State.awaited (s : State) (k : SlotNo) : Bool :=
  s.runner.state == .posting &&
    match s.definition with
    | some d => d.holds k
    | none => false

/-- A slot becomes FREE, with owner HOST and no lock (R48). A runner waiting in POSTING for its window gets a posting
attempt, an event of its own taken later (R173). -/
def State.freeSlot (s : State) (k : SlotNo) : State :=
  let s' := (s.setSlot k Slot.empty).dropLock k
  if s.awaited k then s'.modRunner fun r => { r with attemptsDue := r.attemptsDue + 1 } else s'

/-- A completion under the reset mark drops the order: the RUNNING slot becomes FREE without a report (R61). -/
def State.dropOrder (s : State) (k : SlotNo) : State :=
  if (s.slot k).state = .running then (s.freeSlot k).noteRunning else s

/-- An order as it is written: ARMED with a trigger, else PENDING; nothing else of the slot survives (R50). -/
def Slot.written (o : Order) (owner : Owner) : Slot :=
  { Slot.empty with state := if o.trigger.isSome then .armed else .pending, order := some o, owner := owner }

/-- An order is written into a slot; a round opens if the slot is then PENDING (R50, R70). -/
def State.writeOrder (s : State) (k : SlotNo) (o : Order) (owner : Owner) : State :=
  let s' := (s.setSlot k (Slot.written o owner)).dropLock k
  if o.trigger.isSome then s' else s'.openRound

/-- A GRANTED slot goes back to PENDING at the start of a HOLD drain, its grant abandoned (R73). -/
def State.ungrant (s : State) (k : SlotNo) : State :=
  let r := s.slot k
  if r.state = .granted then ((s.setSlot k r.returned).openRound).handBackOf r else s

/-- The start of warm reset for one slot: a RUNNING slot keeps running with owner HOST, every other one becomes FREE
and a grant is abandoned (R74). -/
def State.resetSlot (s : State) (k : SlotNo) : State :=
  let r := s.slot k
  if r.state = .running then s.setSlot k { r with owner := .host }
  else (s.setSlot k Slot.empty).handBackOf r

/-! ### The lock (R64 to R66) -/

/-- The effects of releasing the lock of slot `k`: a deferred trigger makes it PENDING, a DONE runner slot is offered
(R64, step 1). -/
def State.releaseLock (s : State) (k : SlotNo) : State :=
  let r := s.slot k
  let s' := s.setLock none
  if r.state = .armed ∧ r.deferred = true then
    (s'.setSlot k { r with state := .pending, deferred := false }).openRound
  else s'.offer k

/-- READ_SLOT of slot `k` releases the lock of another slot (R64, step 1). -/
def State.releaseOther (s : State) (k : SlotNo) : State :=
  match s.lock with
  | some j => if j = k then s else s.releaseLock j
  | none => s

/-- READ_SLOT takes the lock: the slot held an unread report and is ARMED or DONE (R64, step 2). -/
def State.takeLock (s : State) (k : SlotNo) : State :=
  let r := s.slot k
  if r.unread = true ∧ (r.state = .armed ∨ r.state = .done) then s.setLock (some k) else s

/-- READ_SLOT clears the marks of the report it carried (R63). -/
def Slot.markRead (k : Slot) : Slot :=
  { k with report := k.report.map fun r => { r with unread := false, overwritten := false } }

/-! ### Tide events (R66, R68, R69) -/

/-- One slot under a tide event: released, or deferred if locked. -/
def State.matchSlot (e : TideEvent) (s : State) (k : SlotNo) : State :=
  if (s.slot k).matches e then
    if s.locked k then s.modSlot k fun r => { r with deferred := true }
    else (s.modSlot k fun r => { r with state := .pending, deferred := false }).openRound
  else s

/-- A tide event is matched against every ARMED slot, except in RESETTING (R69). -/
def State.matchEvent (s : State) (e : TideEvent) : State :=
  if s.mode = .resetting then s else allSlots.foldl (State.matchSlot e) s

end Sys2Proof.Machine
end

