-- ==== Sys2Proof/Machine/Motion.lean ====
section
/-! DEFINITION. A gate's motion record (chapter 2), phase by phase: the valves and timers of each state, trips, parking
and locking, and the setting of the valves in TRAVEL. -/

namespace Sys2Proof.Machine

/-! ### Ends and valves -/

/-- A valve set CLOSED; its stall timer stops (R27). -/
def EndRec.closed (e : EndRec) : EndRec := { e with valve := .closed, stall := none }

/-- A valve set to a raise or lower rate. The stall timer and its reference start where the valve comes from CLOSED or
BUILD and run on where it was driven before (R27). -/
def EndRec.drive (e : EndRec) (v : Valve) : EndRec :=
  if e.valve.driven then { e with valve := v }
  else { e with valve := v, stall := some Config.stallTime, stallRef := e.held.getD e.stallRef }

/-- An accepted sample of a driven end that has moved 2 mm or more restarts its stall watch (R27). -/
def EndRec.watch (e : EndRec) : EndRec :=
  match e.held with
  | some x =>
    if e.valve.driven = true ∧ 2 ≤ mag (x - e.stallRef) then { e with stallRef := x, stall := some Config.stallTime }
    else e
  | none => e

/-- Both valves CLOSED, the trim end cleared (R24, R33, R41, R158). -/
def GateRec.shut (r : GateRec) : GateRec :=
  { r.modEnds EndRec.closed with move := { r.move with trimEnd := none } }

/-- Both lock-pin commands. -/
def GateRec.pins (r : GateRec) (c : PinCmd) : GateRec := r.modEnds fun e => { e with pinCmd := c }

/-- The phase timer `t` runs. -/
def GateRec.runs (r : GateRec) (t : PhaseTimer) : Bool :=
  match r.phase with
  | some (t', _) => t' == t
  | none => false

/-- A recorded trim end follows the leading end of the present direction (R26; log 14). -/
def GateRec.followTrim (r : GateRec) : GateRec :=
  match r.move.trimEnd, r.skew with
  | some e, some k => { r with move := { r.move with trimEnd := some ((leadingEnd r.raising k).getD e) } }
  | _, _ => r

/-- The skew trim of a sample (R25, step 4; R26). -/
def GateRec.trim (r : GateRec) : GateRec :=
  match r.kind, r.skew with
  | some .level, _ => r
  | _, none => r
  | _, some k =>
    match r.move.trimEnd with
    | none =>
      if r.params.skewTrim < mag k then { r with move := { r.move with trimEnd := leadingEnd r.raising k } } else r
    | some _ =>
      if mag k ≤ r.params.skewTrim.tdiv 2 then { r with move := { r.move with trimEnd := none } } else r

/-- One end's valve in TRAVEL (R25, step 5). -/
def GateRec.driveEnd (r : GateRec) (e : HoistEnd) : EndRec :=
  if r.drives e then (r.hoist e).drive (if r.raising then .raise r.rateNow else .lower r.rateNow)
  else (r.hoist e).closed

/-- The setting of the valves (R25, step 5). -/
def GateRec.setValves (r : GateRec) : GateRec :=
  let r := r.followTrim
  { r with endL := r.driveEnd .l, endR := r.driveEnd .r }

/-! ### Outcomes -/

/-- Record a pending outcome: STOPPED replaces any, every other one only fills an empty place (R30). -/
def Move.setPending (m : Move) (o : OrderOutcome) : Move :=
  match o, m.outcome with
  | .stopped, _ => { m with outcome := some .stopped }
  | o, none => { m with outcome := some o }
  | _, some _ => m

/-- The outcome of a settled gate: REACHED, or CLAMPED with the clamped mark (R29). -/
def Move.settledOutcome (m : Move) : OrderOutcome := if m.clamped then .clamped else .reached

/-! ### Completion by the gate, trips -/

/-- The gate hands its completion to the order table, or has the order dropped under the reset mark (R31, R33). -/
def State.endOrder (s : State) (r : GateRec) (o : OrderOutcome) (cause : Option TripCause) : State :=
  match r.move.slot with
  | none => s
  | some k =>
    if r.move.resetMark then s.dropOrder k else s.completeRunning k o cause r.endL.held r.endR.held

/-- The record of a gate at the moment it trips (R33, steps 1 and 2; R34). -/
def GateRec.tripped (r : GateRec) (c : TripCause) (further : BitVec 7) (e : Concern) (t : Clock) : GateRec :=
  { (r.shut.pins .engage) with
      state := .tripped, phase := none,
      trip := some { first := c, further := further, concerned := e, time := t } }

/-- The last step of a trip: the move items are cleared, and the lock timer runs unless both pins read ENGAGED
(R33, step 6; R35). -/
def GateRec.afterTrip (r : GateRec) (engaged : Bool) : GateRec :=
  { r with move := .empty, phase := if engaged then none else some (.lock, r.params.lockTime * 100) }

/-- A trip of a gate in a motion state or in PARKED (R33). -/
def State.tripGate (s : State) (g : GateNo) (c : TripCause) (further : BitVec 7) (e : Concern) : State :=
  let r := s.gate g
  let s := s.setGate g (r.tripped c further e s.clock)
  let s := s.notify (.gateTrip g c e r.move.slot s.clock)
  let s := match r.state with
    | .parked =>
      match s.grantedFor g with
      | some k => s.completeGranted k .tripped (some c) r.endL.held r.endR.held
      | none => s
    | _ => (s.endOrder r .tripped (some c)).releaseUnit r.move.unit
  s.modGate g fun r => r.afterTrip (s.bothPins g .engaged)

/-- A further cause joins the trip record (R35). -/
def GateRec.addFurther (r : GateRec) (c : TripCause) : GateRec :=
  { r with trip := r.trip.map fun t => { t with further := t.further ||| c.single } }

/-- An end enters FAULTED: the gate trips with ENCODER, or ENCODER joins the further causes (R10). -/
def State.encoderFault (s : State) (g : GateNo) (e : HoistEnd) : State :=
  match (s.gate g).state with
  | .absent => s
  | .tripped => s.modGate g fun r => r.addFurther .encoder
  | _ => s.tripGate g .encoder 0 (endConcern e)

/-! ### Locking and parking -/

/-- The record of a gate as it parks (R31, step 1; R38). -/
def GateRec.parked (r : GateRec) : GateRec :=
  { r with
      state := .parked, phase := none,
      levelRequired := r.levelRequired && !(r.kind == some .level && r.move.outcome == some .reached) }

/-- The end of a move with both pins ENGAGED (R31). -/
def State.park (s : State) (g : GateNo) : State :=
  let r := s.gate g
  let s := s.setGate g r.parked
  let s := s.endOrder r (r.move.outcome.getD .stopped) none
  let s := s.releaseUnit r.move.unit
  s.modMove g fun _ => Move.empty

/-- The record of a gate entering LOCKING: valves CLOSED, pins ENGAGE, every other timer of the move cancelled, lock
timer started (R31). -/
def GateRec.locking (r : GateRec) : GateRec :=
  let r := r.shut.pins .engage
  { r with state := .locking, phase := some (.lock, r.params.lockTime * 100), move := { r.move with hold := none } }

/-- Entry to LOCKING with a pending outcome; with both pins ENGAGED already, the gate parks in the same event (R31). -/
def State.enterLocking (s : State) (g : GateNo) (o : OrderOutcome) : State :=
  let s := s.modGate g fun r => { r.locking with move := r.locking.move.setPending o }
  if s.bothPins g .engaged then s.park g else s

/-! ### Settling -/

/-- Entry to SETTLING (R24, R29). -/
def GateRec.settling (r : GateRec) : GateRec :=
  let r := r.shut
  { r with state := .settling, phase := some (.settle, Config.settleTime), move := { r.move with quiet := 0 } }

/-- An accepted sample in SETTLING: a quiet one adds 1 to the quiet count, and the one that brings it to quiet_count
settles the gate (R29). -/
def State.countQuiet (s : State) (g : GateNo) : State :=
  let r := s.gate g
  if r.isQuiet then
    let s := s.modMove g fun m => { m with quiet := m.quiet + 1 }
    if r.params.quietCount ≤ r.move.quiet + 1 then s.enterLocking g r.move.settledOutcome else s
  else s.modMove g fun m => { m with quiet := 0 }

/-! ### Start, release, build -/

/-- The record of a gate entering BUILDING (R19). -/
def GateRec.building (r : GateRec) : GateRec :=
  { (r.modEnds fun e => { e with valve := .build, fresh := false }) with
      state := .building, phase := some (.build, r.params.buildSteps * 50) }

/-- The record of a gate taking the start of a move: the outputs of RELEASING (R16, R17). -/
def GateRec.releasing (r : GateRec) (k : SlotNo) (u : UnitNo) (o : Order) (target : Option Int) (reduced : Bool) :
    GateRec :=
  { (r.shut.pins .withdraw) with
      state := .releasing, phase := some (.release, r.params.releaseTime * 100),
      move := { Move.empty with slot := some k, unit := some u,
                                order := some { kind := o.kind, speed := o.speed, rule := o.rule },
                                orderTarget := target, clamped := reduced } }

/-- The start of a move; with both pins WITHDRAWN already, the gate passes to BUILDING in the same event (R17). -/
def State.startMove (s : State) (g : GateNo) (k : SlotNo) (u : UnitNo) (o : Order) (target : Option Int)
    (reduced : Bool) : State :=
  let s := s.modGate g fun r => r.releasing k u o target reduced
  if s.bothPins g .withdrawn then s.modGate g GateRec.building else s

end Sys2Proof.Machine
end

