-- ==== Sys2Proof/Machine/Travel.lean ====
section
/-! DEFINITION. TRAVEL and HELD: the forming of targets (R21, R39, R153), changes of target (R28, R136, R161), reach
(R24, R156), the entry to TRAVEL (R21, R155), and the start of a move at line-up (R54, R55, R100, R135). -/

namespace Sys2Proof.Machine

/-! ### Targets -/

/-- A change of target from the envelope unit, limited to 0 to opening_max like every target (R21): CLAMP sets the clamped
mark, REFUSE records ENVELOPE and makes a streamed move final (R28, R139, R161). -/
def GateRec.changeTarget (r : GateRec) (rule : EnvRule) (t : Int) : GateRec :=
  let m := { r.move with target := some (capTarget r.params.openingMax t) }
  match rule with
  | .refuse =>
    { r with move := { m.setPending .envelope with final := r.move.final || r.kind == some .stream,
                                                   clamped := r.move.clamped || decide (r.params.openingMax < t) } }
  | _ => { r with move := { m with clamped := true } }

/-- The change of target that the envelope calls for at a ceiling, if it calls for one (R133, R134, R136, R137). -/
def GateRec.envelopeChange (r : GateRec) (ceiling : Int) : Option (EnvRule × Int) :=
  match r.move.order, r.opening, r.move.target with
  | some o, some x, some t => (limitedTarget o.kind o.rule x ceiling t).map fun t' => (o.rule, t')
  | _, _, _ => none

/-- The envelope's check of a target that is being taken (R136, R138). -/
def GateRec.checkEnvelope (r : GateRec) (ceiling : Int) : GateRec :=
  match r.envelopeChange ceiling with
  | some (rule, t) => r.changeTarget rule t
  | none => r

/-- A target is taken, limited to 0 to opening_max; a reduction sets the clamped mark (R21). -/
def GateRec.takeTarget (r : GateRec) (t : Int) : GateRec :=
  { r with move := { r.move with target := some (capTarget r.params.openingMax t),
                                 clamped := r.move.clamped || decide (r.params.openingMax < t) } }

/-- The driven end and target of a LEVEL order, and its entry skew (R39). -/
def GateRec.takeLevel (r : GateRec) : GateRec :=
  match r.endL.held, r.endR.held with
  | some l, some x =>
    { r with move := { r.move with drivenEnd := some (if l < x then .r else .l),
                                   target := some (capTarget r.params.openingMax (if l < x then l else x)),
                                   entrySkew := some (mag (l - x)) } }
  | _, _ => r

/-- The gate takes a popped point: its target limited and checked, its tag, its stream rate (R153, R154). -/
def GateRec.takePoint (r : GateRec) (p : Point) (ceiling : Int) : GateRec :=
  let r := (r.takeTarget p.target).checkEnvelope ceiling
  let distance := match r.opening, r.move.target with
    | some x, some t => t - x
    | _, _ => 0
  { r with move := { r.move with tag := some p.tag, rate := some (streamRate distance p.stepTime) } }

/-- A queue after its oldest point is removed (R153). -/
def Queue.popped (q : Queue) : Queue := { q with points := q.points.tail, readPos := q.cellAt 1 }

/-- A pop (R153): the point leaves the queue, PROFILE_LEVEL and PROFILE_MARK are raised, the gate takes the point. -/
def State.pop (s : State) (g : GateNo) : State :=
  let q := s.queue g
  match q.points with
  | [] => s
  | p :: rest =>
    let s := s.setQueue g q.popped
    let s := if q.limitDir = .falling ∧ q.level = q.limit then
        s.notify (.profileLevel g rest.length q.limit .falling s.clock)
      else s
    let s := if p.tag = .mark then
        s.notify (.profileMark g ((s.gate g).move.slot.getD 0) p rest.length s.clock)
      else s
    s.modGate g fun r => r.takePoint p (s.ceiling g)

/-! ### HELD -/

/-- The record of a gate entering HELD (R158). -/
def GateRec.heldAt (r : GateRec) (holdTime : Nat) : GateRec :=
  let r := r.shut
  { r with state := .held, phase := none, move := { r.move with hold := some (holdTime * 1000) } }

/-- Entry to HELD, with its STREAM_HELD notice (R158). -/
def State.enterHeld (s : State) (g : GateNo) : State :=
  let r := s.gate g
  (s.modGate g fun r => r.heldAt (s.queue g).holdTime).notify
    (.streamHeld g (r.move.slot.getD 0) r.move.target (r.opening.getD 0) s.clock)

/-! ### Reach -/

/-- The reach of a STREAM gate, taken again after each pop, at most `n` times (R156). -/
def State.streamReach : Nat → GateNo → State → State
  | 0, _, s => s
  | n + 1, g, s =>
    let r := s.gate g
    if r.reached = false then s
    else if r.move.cut then s.enterLocking g .cut
    else if r.move.tag = some .last ∨ r.move.final = true then s.modGate g GateRec.settling
    else if (s.queue g).points.isEmpty then s.enterHeld g
    else State.streamReach n g (s.pop g)

/-- The reach test of a gate in TRAVEL and what follows it (R24, R156). A queue of level `n` gives at most `n` pops, and
the test after the last of them finds it empty. -/
def State.reachTest (s : State) (g : GateNo) : State :=
  let r := s.gate g
  match r.kind with
  | some .stream => State.streamReach ((s.queue g).level + 1) g s
  | _ => if r.reached then s.modGate g GateRec.settling else s

/-- A gate still in TRAVEL has its valves set (R25, step 5). -/
def State.setValves (s : State) (g : GateNo) : State :=
  if (s.gate g).state = .travel then s.modGate g GateRec.setValves else s

/-! ### Entry to TRAVEL -/

/-- The checks that follow the forming of the target: the envelope, overtravel and skew, reach, and then the valves
(R21). The reach test is made once, after the entry checks (log 22). -/
def State.travelEntry (s : State) (g : GateNo) : State :=
  let s := s.modGate g fun r => r.checkEnvelope (s.ceiling g)
  match (s.gate g).travelTrip with
  | some (c, further, e) => s.tripGate g c further e
  | none => (s.reachTest g).setValves g

/-- Entry to TRAVEL from BUILDING or HELD (R21, R155). -/
def State.enterTravel (s : State) (g : GateNo) : State :=
  let s := s.modGate g fun r => { r with state := .travel, phase := none, move := { r.move with hold := none } }
  let r := s.gate g
  match r.kind with
  | some .stream =>
    if r.move.cut then s.enterLocking g .cut
    else if r.move.final then s.travelEntry g
    else if (s.queue g).points.isEmpty then s.enterHeld g
    else (s.pop g).travelEntry g
  | some .level => (s.modGate g GateRec.takeLevel).travelEntry g
  | _ => (s.modGate g fun r => r.takeTarget (r.move.orderTarget.getD 0)).travelEntry g

/-- A change of target reaches a gate (R28, R161). -/
def State.retarget (s : State) (g : GateNo) (rule : EnvRule) (t : Int) : State :=
  let s := s.modGate g fun r => r.changeTarget rule t
  match (s.gate g).state with
  | .travel => (s.reachTest g).setValves g
  | .settling => s.modMove g fun m => { m with quiet := 0 }
  | .held => if rule = .refuse then s.enterTravel g else s
  | _ => s

/-- The change of target that a fallen ceiling calls for at a gate in TRAVEL, SETTLING or HELD (R137). -/
def State.fallChange (s : State) (g : GateNo) : Option (EnvRule × Int) :=
  match (s.gate g).state with
  | .travel | .settling | .held => (s.gate g).envelopeChange (s.ceiling g)
  | _ => none

/-- The in-flight check of one gate whose ceiling has fallen (R137). -/
def State.checkFall (s : State) (g : GateNo) : State :=
  match s.fallChange g with
  | some (rule, t) => s.retarget g rule t
  | none => s

/-! ### Line-up -/

/-- The result of the envelope check at line-up (R135): passed with an effective target and whether it was reduced, or
refused (`none`). -/
def State.lineUpCheck (s : State) (o : Order) : Option (Option Int × Bool) :=
  match o.kind, o.target, (s.gate o.gate).opening with
  | .set, some t, some x =>
    match limitedTarget .set o.rule x (s.ceiling o.gate) t with
    | none => some (some t, false)
    | some t' => if o.rule = .refuse then none else some (some t', true)
  | .set, t, _ => some (t, false)
  | _, _, _ => some (none, false)

/-- The slot as a passed line-up leaves it (R54). -/
def Slot.started (k : Slot) (t : Clock) : Slot := { k with state := .running, startTime := some t }

/-- A LINING_UP unit reports its manifold lined up: the unit is ASSIGNED; the order runs, or completes ENVELOPE and the
unit is released (R54, R55, R100). -/
def State.linedUp (s : State) (u : UnitNo) (k : SlotNo) (g : GateNo) : State :=
  let r := s.slot k
  let s := s.modUnit u fun p => p.toAssigned g
  match r.state, r.order with
  | .granted, some o =>
    match s.lineUpCheck o with
    | some (t, reduced) => (s.modSlot k fun r => r.started s.clock).startMove g k u o t reduced
    | none =>
      let x := s.gate g
      (s.complete k { outcome := .envelope, cause := none, finalL := x.endL.held, finalR := x.endR.held,
                      startTime := some s.clock, unitUsed := some u }).releaseUnit (some u)
  | _, _ => s.releaseUnit (some u)

end Sys2Proof.Machine
end

