-- ==== Sys2Proof/Machine/Samples.lean ====
section
/-! DEFINITION. The field events of a gate: encoder samples and silence (R6 to R10), lock-pin feedback (R18, R20, R31,
R35), timer expiries (R18, R19, R27, R30, R32, R35, R160), and the stops, cuts and resets that reach a gate from
outside (R41, R42, R44, R162). -/

namespace Sys2Proof.Machine

/-! ### Encoder samples -/

/-- What a sample did to its end: accepted, FAULTED it, or only recorded (with or without recovery). -/
inductive SampleResult where
  | accepted | faulted | recorded
  deriving DecidableEq, Repr

/-- The sample arrives in time: within 250 ms of the one before it, whose silence timer still runs (R7, R9; logs 2
and 3). -/
def EndRec.inTime (e : EndRec) (elapsed : Nat) : Bool := e.silence.isSome && decide (elapsed ≤ Config.encoderSilence)

/-- What every sample leaves: the silence timer restarted, the pressure stored, and its opening as the reference for
the next one (R6, R7, R9). -/
def EndRec.received (e : EndRec) (x : Int) (pressure : Nat) : EndRec :=
  { e with silence := some Config.encoderSilence, pressure := some pressure, reference := some x }

/-- A FAULTED end's sample is consistent with the sample before it (R9). -/
def EndRec.consistent (e : EndRec) (x : Int) (elapsed : Nat) : Bool :=
  e.inTime elapsed && match e.reference with
    | some y => decide (mag (x - y) ≤ 50)
    | none => false

/-- A GOOD end's sample passes both tests (R7). -/
def EndRec.passes (e : EndRec) (x : Int) (elapsed : Nat) : Bool :=
  e.inTime elapsed && match e.held with
    | some y => decide (mag (x - y) ≤ 50)
    | none => false

/-- A sample of opening `x` at an end (R6, R7, R9). -/
def EndRec.sample (e : EndRec) (x : Int) (pressure elapsed : Nat) : EndRec × SampleResult :=
  let e' := e.received x pressure
  match e.status with
  | .unknown => ({ e' with status := .good, held := some x, recovery := 0 }, .accepted)
  | .good =>
    if e.passes x elapsed then ({ e' with held := some x }, .accepted)
    else ({ e' with status := .faulted, recovery := 0 }, .faulted)
  | .faulted =>
    if e.consistent x elapsed then
      if 4 ≤ e.recovery + 1 then ({ e' with status := .good, held := some x, recovery := 0 }, .recorded)
      else ({ e' with recovery := e.recovery + 1 }, .recorded)
    else ({ e' with recovery := 0 }, .recorded)

/-- An accepted sample of end `e` in TRAVEL: stall watch, checks, reach, trim, valves (R25, R27). -/
def State.travelSample (s : State) (g : GateNo) (e : HoistEnd) : State :=
  let s := s.modGate g fun r => r.modEnd e EndRec.watch
  match (s.gate g).travelTrip with
  | some (c, further, x) => s.tripGate g c further x
  | none =>
    let s := s.reachTest g
    if (s.gate g).state = .travel then s.modGate g fun r => r.trim.setValves else s

/-- An accepted sample in SETTLING: the skew check, then the quiet count (R23, R29, R40). The order of the two is the
model's choice (DESIGN CHOICE, log 31). -/
def State.settlingSample (s : State) (g : GateNo) : State :=
  let r := s.gate g
  if r.skewTripped then s.tripGate g .skew 0 r.skewConcern else s.countQuiet g

/-- An accepted sample in HELD: the skew check (R23, R43). -/
def State.heldSample (s : State) (g : GateNo) : State :=
  let r := s.gate g
  if r.skewTripped then s.tripGate g .skew 0 r.skewConcern else s

/-- A sample that reached the controller in BUILDING: the fresh mark, then the test for completion (R19). -/
def State.buildSample (s : State) (g : GateNo) (e : HoistEnd) : State :=
  let s := s.modGate g fun r => r.modEnd e fun x => { x with fresh := true }
  let r := s.gate g
  if r.endL.built r.params.buildPressure && r.endR.built r.params.buildPressure then s.enterTravel g else s

/-- What an accepted or recorded sample does to the gate's motion (R18, R19, R25, R29, R43). -/
def State.afterSample (s : State) (g : GateNo) (e : HoistEnd) (res : SampleResult) : State :=
  match (s.gate g).state, res with
  | .building, _ => s.buildSample g e
  | .travel, .accepted => s.travelSample g e
  | .settling, .accepted => s.settlingSample g
  | .held, .accepted => s.heldSample g
  | _, _ => s

/-- An encoder sample on a channel of a present gate (R2 to R10). -/
def State.encoderSample (s : State) (g : GateNo) (ch : Channel) (count pressure elapsed : Nat) : State :=
  let r := s.gate g
  if r.state = .absent then s
  else
    let e := r.params.swap.endOf ch
    let res := (r.hoist e).sample (r.params.opening e count) pressure elapsed
    let s := s.modGate g fun r => r.modEnd e fun _ => res.1
    match res.2 with
    | .faulted => s.encoderFault g e
    | res => s.afterSample g e res

/-- The silence timer of an end expires (R6, R8). -/
def State.encoderSilence (s : State) (g : GateNo) (e : HoistEnd) : State :=
  let x := (s.gate g).hoist e
  match x.silence with
  | none => s
  | some _ =>
    let s := s.modGate g fun r => r.modEnd e fun x => { x with silence := none, status := .faulted, recovery := 0 }
    if x.status = .faulted then s else s.encoderFault g e

/-! ### Lock-pin feedback -/

/-- A change of an end's lock-pin feedback at a present gate, the input being recorded already (R18, R20, R31, R35). -/
def State.pinChanged (s : State) (g : GateNo) (e : HoistEnd) : State :=
  let r := s.gate g
  match r.state with
  | .releasing => if s.bothPins g .withdrawn then s.modGate g GateRec.building else s
  | .building | .travel | .held | .settling =>
    if s.pin g e = .withdrawn then s else s.tripGate g .lockPin 0 (endConcern e)
  | .locking => if s.bothPins g .engaged then s.park g else s
  | .tripped => if s.bothPins g .engaged then s.modGate g fun r => { r with phase := none } else s
  | _ => s

/-- The new level of a channel's lock-pin input. -/
def PinInputs.put (p : PinInputs) (c : Channel) (v : PinPos) : PinInputs :=
  match c with
  | .a => { p with a := v }
  | .b => { p with b := v }

/-! ### Timer expiries -/

/-- The release timer expires in RELEASING (R18). -/
def State.releaseExpired (s : State) (g : GateNo) : State :=
  if (s.gate g).state = .releasing ∧ (s.gate g).runs .release = true then
    s.tripGate g .lockPin 0 (concernOf (s.pin g .l != .withdrawn) (s.pin g .r != .withdrawn))
  else s

/-- The build timer expires in BUILDING (R19). -/
def State.buildExpired (s : State) (g : GateNo) : State :=
  let r := s.gate g
  if r.state = .building ∧ r.runs .build = true then
    s.tripGate g .pressure 0
      (concernOf (!r.endL.built r.params.buildPressure) (!r.endR.built r.params.buildPressure))
  else s

/-- The stall timer of an end expires while its valve is driven (R27). -/
def State.stallExpired (s : State) (g : GateNo) (e : HoistEnd) : State :=
  let r := s.gate g
  if r.state = .travel ∧ (r.hoist e).stall.isSome = true ∧ (r.hoist e).valve.driven = true then
    s.tripGate g .stall 0 (endConcern e)
  else s

/-- The settle timer expires in SETTLING (R30). -/
def State.settleExpired (s : State) (g : GateNo) : State :=
  if (s.gate g).state = .settling ∧ (s.gate g).runs .settle = true then s.enterLocking g .unsettled else s

/-- The lock timer expires in LOCKING (R32). -/
def State.lockExpired (s : State) (g : GateNo) : State :=
  if (s.gate g).state = .locking ∧ (s.gate g).runs .lock = true then
    s.tripGate g .lockPin 0 (concernOf (s.pin g .l != .engaged) (s.pin g .r != .engaged))
  else s

/-- The lock timer expires in TRIPPED: LOCK_PIN joins the further causes (R35). -/
def State.tripLockExpired (s : State) (g : GateNo) : State :=
  if (s.gate g).state = .tripped ∧ (s.gate g).runs .lock = true then
    s.modGate g fun r => { r.addFurther .lockPin with phase := none }
  else s

/-- The hold timer expires in HELD (R160). -/
def State.holdExpired (s : State) (g : GateNo) : State :=
  if (s.gate g).state = .held ∧ (s.gate g).move.hold.isSome = true then s.enterLocking g .starved else s

/-! ### Stops, cuts, resets, loss of the unit -/

/-- A stop of a gate in a motion state (R41, R42). -/
def State.stopMove (s : State) (g : GateNo) : State :=
  match (s.gate g).state with
  | .releasing | .building | .travel | .held | .settling => s.enterLocking g .stopped
  | .locking => s.modMove g fun m => m.setPending .stopped
  | _ => s

/-- The drain cut at a gate running a STREAM order (R162). -/
def State.cutStream (s : State) (g : GateNo) : State :=
  if (s.gate g).kind = some .stream then
    match (s.gate g).state with
    | .releasing | .building | .travel => s.modMove g fun m => { m with cut := true }
    | .held => s.enterLocking g .cut
    | _ => s
  else s

/-- The start of warm reset at a gate (R44). -/
def State.resetMove (s : State) (g : GateNo) : State :=
  match (s.gate g).state with
  | .releasing | .building | .travel | .held | .settling =>
    (s.modMove g fun m => { m with resetMark := true }).enterLocking g .stopped
  | .locking => s.modMove g fun m => { m with resetMark := true }
  | _ => s

/-- The gate is told that its ASSIGNED unit is lost (R36). -/
def State.losePower (s : State) (g : GateNo) : State :=
  if (s.gate g).state.moving then s.tripGate g .powerLost 0 .both else s

/-- A fault of an ASSIGNED unit: OUT_OF_SERVICE first, then the gate's trip (R104). -/
def State.assignedFault (s : State) (u : UnitNo) : State :=
  let g := (s.unit u).gate
  let s := s.takeOut u .fault
  match g with
  | some g => s.losePower g
  | none => s

/-- Assertion of a unit's fault input, in the state the unit is in (R104). -/
def State.faultAsserted (s : State) (u : UnitNo) : State :=
  match (s.unit u).state with
  | .assigned => s.assignedFault u
  | _ => s.unitFault u

end Sys2Proof.Machine
end

