-- ==== Sys2Proof/Machine/Sequence.lean ====
section
/-! DEFINITION. The sequence runner (chapter 9): posting attempts, dwell, collection, failure and winding down. -/

namespace Sys2Proof.Machine

/-! ### States of the runner -/

/-- Entry to POSTING for a step and pass (R171, R172, R178). -/
def Runner.toPosting (r : Runner) (step : StepNo) (pass : Nat) : Runner :=
  { r with state := .posting, step := some step, pass := some pass, posted := some 0, anyClamped := some false,
           dwell := none, offers := [], attemptsDue := 0 }

/-- Entry to DWELL at a step's dwell in seconds (R177). -/
def Runner.toDwell (r : Runner) (seconds : Nat) : Runner :=
  { r with state := .dwell, dwell := some (seconds * 1000), attemptsDue := 0 }

/-- Entry to WINDING_DOWN (R179, R181). -/
def Runner.toWinding (r : Runner) (o : EndOutcome) (c : Option FailCause) (k : Option SlotNo) : Runner :=
  { r with state := .windingDown, endOutcome := some o, cause := c, failedSlot := k, dwell := none,
           attemptsDue := 0 }

/-- An entry leaves the outstanding list (R171). Any offer of its slot that has not been claimed leaves with it: a slot
offered by its completion and again at a lock's release, and then collected, has no second claim to refuse as
interference. That is this model's choice (DEDUCED, log 29). -/
def Runner.remove (r : Runner) (k : SlotNo) : Runner :=
  { r with outstanding := r.outstanding.filter fun e => e.1 != k, offers := r.offers.filter fun j => j != k }

/-- The runner enters IDLE with SEQUENCE_END (R178, R180). -/
def State.endSequence (s : State) (o : EndOutcome) : State :=
  let r := s.runner
  (s.setRunner .idle).notify
    (.sequenceEnd o (r.step.getD 0) (r.pass.getD 0) r.cause r.failedSlot s.clock)

/-- In WINDING_DOWN with an empty outstanding list the sequence ends (R180). -/
def State.endIfEmpty (s : State) : State :=
  if s.runner.state = .windingDown ∧ s.runner.outstanding = [] then
    s.endSequence (s.runner.endOutcome.getD .aborted)
  else s

/-- A runner withdrawal: taken for a PENDING or GRANTED slot of owner SEQUENCE (R72). -/
def State.withdraw (s : State) (k : SlotNo) : State :=
  let r := s.slot k
  if r.owner = .sequence ∧ (r.state = .pending ∨ r.state = .granted) then
    ((s.freeSlot k).handBackOf r).modRunner fun x => x.remove k
  else s

/-- Entry to WINDING_DOWN: the withdrawals, and the end if nothing is left (R180). -/
def State.windDown (s : State) (o : EndOutcome) (c : Option FailCause) (k : Option SlotNo) : State :=
  let s := s.modRunner fun r => r.toWinding o c k
  ((s.runner.outstanding.map Prod.fst).foldl State.withdraw s).endIfEmpty

/-- The step fails (R179). -/
def State.failStep (s : State) (c : FailCause) (k : Option SlotNo) : State := s.windDown .failed (some c) k

/-- A notice of interference, or a refused collection, for slot `k` (R52, R176, R179, R180). -/
def State.interfere (s : State) (k : SlotNo) : State :=
  if s.runner.has k then
    let s := s.modRunner fun r => r.remove k
    match s.runner.state with
    | .step => s.failStep .interfered (some k)
    | .windingDown => s.endIfEmpty
    | _ => s
  else s

/-- A stop of the runner (R181). -/
def State.stopRunner (s : State) : State :=
  match s.runner.state with
  | .posting | .step | .dwell => s.windDown .aborted none none
  | _ => s

/-! ### Posting -/

/-- The non-empty cells of a step in gate order (R165). -/
def State.stepCells (s : State) (i : StepNo) : List (GateNo × Int) :=
  allGates.filterMap fun g => ((s.stage.steps.get i).cells.get g).map fun t => (g, t)

/-- A cell fails its gate (R174). -/
def State.cellFails (s : State) (d : SequenceDef) (c : GateNo × Int) : Bool :=
  (s.gate c.1).state == .absent || decide ((s.gate c.1).params.openingMax < c.2)
    || (d.rule == .override && !(s.gate c.1).params.overrideAllowed)

/-- The FREE slots of the window in the order the search finds them: from the pointer up, then wrapping (R175). -/
def State.freeFrom (s : State) (d : SequenceDef) (p : SlotNo) : List SlotNo :=
  (d.window.filter (fun k => p ≤ k) ++ d.window.filter (fun k => k < p)).filter fun k => (s.slot k).state == .free

/-- The slot after `k` in the window, wrapping (R175). -/
def SequenceDef.after (d : SequenceDef) (k : SlotNo) : SlotNo := if k = d.windowLast then d.windowFirst else k + 1

/-- The order of a cell (R175). -/
def SequenceDef.order (d : SequenceDef) (i : StepNo) (c : GateNo × Int) : Order :=
  { kind := .set, gate := c.1, target := some c.2, speed := d.speed, priority := d.priority, rule := d.rule,
    trigger := none, rep := .once, tag := i.val }

/-- The posting of a step: every order written, the outstanding list and the pointer set, STEP entered (R70, R175). -/
def State.postStep (s : State) (d : SequenceDef) (i : StepNo) (cells : List (GateNo × Int)) (free : List SlotNo) :
    State :=
  let pairs := cells.zip free
  let s := pairs.foldl (fun s p => s.writeOrder p.2 (d.order i p.1) .sequence) s
  s.modRunner fun r =>
    { r with state := .step, outstanding := pairs.map fun p => (p.2, p.1.1), posted := some pairs.length,
             pointer := match pairs.getLast? with
               | some p => some (d.after p.2)
               | none => r.pointer,
             attemptsDue := 0 }

/-- SEQUENCE_STEP and the entry to DWELL (R177). -/
def State.stepDone (s : State) (i : StepNo) : State :=
  let r := s.runner
  (s.notify (.sequenceStep i (r.pass.getD 0) (r.posted.getD 0) (r.anyClamped.getD false) s.clock)).modRunner
    fun r => r.toDwell (s.stage.steps.get i).dwell

/-- One posting attempt (R173). -/
def State.attemptOnce (s : State) : State :=
  match s.definition, s.runner.step with
  | some d, some i =>
    let cells := s.stepCells i
    let free := s.freeFrom d (s.runner.pointer.getD d.windowFirst)
    if cells = [] then s.stepDone i
    else if d.window.length < cells.length then s.failStep .windowTooSmall none
    else if cells.any (s.cellFails d) then s.failStep .cellRefused none
    else if free.length < cells.length then s
    else s.postStep d i cells free
  | _, _ => s

/-! ### Dwell -/

/-- The dwell has passed (R178). -/
def State.dwellNext (s : State) : State :=
  match s.definition, s.runner.step, s.runner.pass with
  | some d, some i, some p =>
    if i < d.lastStep then s.modRunner fun r => r.toPosting (i + 1) p
    else if p < d.repetitions then s.modRunner fun r => r.toPosting d.firstStep (p + 1)
    else s.endSequence .complete
  | _, _, _ => s

/-- A dwell of 0 expires at once, and the next step's posting attempt is made in the same event, at most `n` times
(R177, R178). -/
def State.runOn : Nat → State → State
  | 0, s => s
  | n + 1, s =>
    if s.runner.state = .dwell ∧ s.runner.dwell = some 0 then
      let s := s.dwellNext
      if s.runner.state = .posting then State.runOn n s.attemptOnce else s
    else s

/-- As many dwells as a sequence can have: sixteen steps in each of its passes. -/
def State.dwellsLeft (s : State) : Nat :=
  match s.definition with
  | some d => (d.repetitions + 1) * 16
  | none => 0

/-- A posting attempt with what follows it in the same event (R173, R177, R178). -/
def State.attempt (s : State) : State :=
  let s := s.attemptOnce
  State.runOn s.dwellsLeft s

/-- The dwell timer expires in DWELL (R178). -/
def State.dwellExpired (s : State) : State :=
  let s := s.dwellNext
  if s.runner.state = .posting then s.attempt else s

/-- A posting attempt that a freed slot of the window has called for (R173). -/
def State.dueAttempt (s : State) : State :=
  if s.runner.state = .posting ∧ 0 < s.runner.attemptsDue then
    (s.modRunner fun r => { r with attemptsDue := r.attemptsDue - 1 }).attempt
  else s

/-! ### Collection -/

/-- The runner records a collected outcome: CLAMPED sets any CLAMPED to yes (R171, R176). -/
def Runner.record (r : Runner) (o : OrderOutcome) : Runner :=
  if o = .clamped then { r with anyClamped := some true } else r

/-- A taken collection: the slot becomes FREE, its outcome is recorded, its entry leaves the list, and the step is judged
(R71, R176, R177, R179, R180). -/
def State.collected (s : State) (k : SlotNo) (o : OrderOutcome) : State :=
  let s := (s.freeSlot k).modRunner fun r => (r.remove k).record o
  match s.runner.state with
  | .step =>
    if o = .reached ∨ o = .clamped then
      if s.runner.outstanding = [] then
        let s := s.stepDone (s.runner.step.getD 0)
        State.runOn s.dwellsLeft s
      else s
    else s.failStep (.outcome o) (some k)
  | _ => s.endIfEmpty

/-- The runner's collection claim on a slot it has been offered (R71, R176). -/
def State.collect (s : State) (k : SlotNo) : State :=
  if s.runner.offers.contains k then
    let s := s.modRunner fun r => { r with offers := r.offers.erase k }
    let r := s.slot k
    match r.state, r.owner, r.report with
    | .done, .sequence, some x => if s.locked k then s else s.collected k x.outcome
    | _, _, _ => s.interfere k
  else s

/-- START_SEQUENCE is taken (R172). -/
def State.startSequence (s : State) (d : SequenceDef) : State :=
  (s.setRunner { Runner.idle.toPosting d.firstStep 1 with pointer := some d.windowFirst }).attempt

/-- The start of warm reset at the runner and the load pointer (R183). -/
def State.resetRunner (s : State) : State :=
  (s.setRunner .idle).setStage { s.stage with pointer := (s.stage.window.firstStep, s.stage.window.firstGate) }

end Sys2Proof.Machine
end

