-- ==== Sys2Proof/Machine/TideOps.lean ====
section
/-! DEFINITION. The tide monitor (chapter 6) as functions of its own record: gauges, history and surge, thresholds, head
and direction, with the tide events they raise. -/

namespace Sys2Proof.Machine

/-! ### Gauges -/

/-- A level lies in the gauge's valid range, both limits included (R110). -/
def GaugeRec.valid (r : GaugeRec) (x : Int) : Bool := decide (r.low ≤ x) && decide (x ≤ r.high)

/-- What every sample leaves: the silence timer restarted, a valid level stored (R110, R113). -/
def GaugeRec.received (r : GaugeRec) (x : Int) : GaugeRec :=
  { r with silence := some Config.gaugeSilence, level := if r.valid x then some x else r.level }

/-- A gauge sample judged: the record after it and the gauge event it raises (R111, R112). -/
def GaugeRec.sample (r : GaugeRec) (x : Int) : GaugeRec × Option (EventKind × Int) :=
  let r' := r.received x
  match r.state, r.valid x with
  | .unknown, true => ({ r' with state := .good }, none)
  | .unknown, false => ({ r' with state := .faulted, recovery := 0 }, none)
  | .good, true => (r', none)
  | .good, false => ({ r' with state := .faulted, recovery := 0 }, some (.gaugeFault, x))
  | .faulted, true =>
    if 3 ≤ r.recovery + 1 then ({ r' with state := .good, recovery := 0 }, some (.gaugeOk, x))
    else ({ r' with recovery := r.recovery + 1 }, none)
  | .faulted, false => ({ r' with recovery := 0 }, none)

/-- The silence timer of a gauge expires (R113). -/
def GaugeRec.silent (r : GaugeRec) : GaugeRec × Option (EventKind × Int) :=
  let r' := { r with silence := none, recovery := 0, state := GaugeState.faulted }
  match r.state with
  | .good => (r', some (.gaugeFault, r.level.getD 0))
  | _ => (r', none)

/-- The record of a gauge. -/
def Tide.gauge (t : Tide) : Gauge → GaugeRec
  | .up => t.up
  | .down => t.down

/-- Replace the record of a gauge. -/
def Tide.setGauge (t : Tide) (g : Gauge) (r : GaugeRec) : Tide :=
  match g with
  | .up => { t with up := r }
  | .down => { t with down := r }

/-- The threshold signal of a gauge. -/
def gaugeSignal : Gauge → Signal
  | .up => .up
  | .down => .down

/-! ### History and surge -/

/-- The history with a level appended, at most 61 entries (R123). -/
def appendLevel (h : List Int) (x : Int) : List Int := (if 61 ≤ h.length then h.tail else h) ++ [x]

/-- The rise over a full history: the newest entry minus the oldest (R124). -/
def riseOf (h : List Int) : Option Int :=
  if h.length = 61 then
    match h.head?, h.getLast? with
    | some a, some b => some (b - a)
    | _, _ => none
  else none

/-- The append and the surge test (R123, R124). -/
def Tide.append (t : Tide) (x : Int) (now : Clock) : Tide × List TideEvent :=
  let h := appendLevel t.history x
  let t' := { t with history := h }
  match riseOf h, t.surge with
  | none, _ => (t', [])
  | some d, false =>
    if t.surgeRate < d then
      ({ t' with surge := true }, [{ kind := .surge, index := none, gauge := none, value := d, time := now }])
    else (t', [])
  | some d, true => if d < t.surgeRate.tdiv 2 then ({ t' with surge := false }, []) else (t', [])

/-! ### Thresholds -/

/-- An enabled threshold evaluated at a value (R117). -/
def Threshold.evaluate (r : Threshold) (v : Int) : Threshold × Option EventKind :=
  match r.state with
  | .unknown => ({ r with state := if r.level ≤ v then .above else .below }, none)
  | .below => if r.level ≤ v then ({ r with state := .above }, some .rise) else (r, none)
  | .above => if v < r.level - r.hysteresis then ({ r with state := .below }, some .fall) else (r, none)

/-- The threshold is served by a value of signal `sig` (R116). -/
def Threshold.serves (r : Threshold) (sig : Signal) : Bool := r.enabled && r.signal == sig

/-- Replace a threshold record. -/
def Tide.setThreshold (t : Tide) (i : ThrNo) (r : Threshold) : Tide :=
  { t with thresholds := t.thresholds.set i.val r i.isLt }

/-- A value of a signal offered to the thresholds listed, in order (R114, R117). -/
def Tide.offerTo (t : Tide) (sig : Signal) (v : Int) (now : Clock) : List ThrNo → Tide × List TideEvent
  | [] => (t, [])
  | i :: rest =>
    let r := t.thresholds.get i
    if r.serves sig then
      let res := r.evaluate v
      let next := (t.setThreshold i res.1).offerTo sig v now rest
      match res.2 with
      | some k => (next.1, { kind := k, index := some i, gauge := none, value := v, time := now } :: next.2)
      | none => next
    else t.offerTo sig v now rest

/-- Every threshold on a signal becomes UNKNOWN (R118). -/
def Tide.forget (t : Tide) (sig : Signal) : Tide :=
  { t with thresholds := Vector.ofFn fun i =>
    let r := t.thresholds.get i
    if r.signal = sig then { r with state := .unknown } else r }

/-! ### Head and direction -/

/-- The direction a side confirms. -/
def Side.direction : Side → TideDir
  | .ebb => .ebb
  | .flood => .flood

/-- The event a side's confirmation raises. -/
def Side.turn : Side → EventKind
  | .ebb => .turnEbb
  | .flood => .turnFlood

/-- A head sample and the confirmation of a turn (R121). -/
def Tide.confirm (t : Tide) (head : Int) (now : Clock) : Tide × List TideEvent :=
  match t.qualifies head with
  | none => ({ t with confirmCount := 0, confirmSide := none }, [])
  | some side =>
    let n := if t.confirmSide = some side then t.confirmCount + 1 else 1
    if t.turnConfirm ≤ n then
      ({ t with confirmCount := 0, confirmSide := none, direction := side.direction },
        [{ kind := side.turn, index := none, gauge := none, value := head, time := now }])
    else ({ t with confirmCount := n, confirmSide := some side }, [])

/-- What an arrival does to the head: nothing, a head sample, or its loss (R115). -/
inductive HeadChange where
  | none | sample (head : Int) | lost
  deriving DecidableEq, Repr

/-- Step 4 of R114. -/
def Tide.formHead (t : Tide) (fresh : Bool) (now : Clock) : Tide × List TideEvent × HeadChange :=
  if t.up.state = .good ∧ t.down.state = .good then
    match fresh, t.up.level, t.down.level with
    | true, some u, some d =>
      let a := ({ t with head := some (u - d) }).offerTo .head (u - d) now allThresholds
      let b := a.1.confirm (u - d) now
      (b.1, a.2 ++ b.2, .sample (u - d))
    | _, _, _ => (t, [], .none)
  else if t.head.isSome then
    ({ t.forget .head with head := none, confirmCount := 0, confirmSide := none }, [], .lost)
  else (t, [], .none)

/-- Step 2 of R114: the history and the surge test of a DOWN arrival; `wasGood` says that the gauge was GOOD before step
1. The first valid sample of an UNKNOWN gauge, which leaves it GOOD, is appended (DEDUCED, log 32). -/
def Tide.keepHistory (t : Tide) (g : Gauge) (r : GaugeRec) (wasGood : Bool) (now : Clock) : Tide × List TideEvent :=
  match g, decide (r.state = .good), r.level with
  | .down, true, some x => t.append x now
  | .down, false, _ => if wasGood then ({ t with history := [], surge := false }, []) else (t, [])
  | _, _, _ => (t, [])

/-- Step 3 of R114: the thresholds on the gauge served, or UNKNOWN where the gauge has left GOOD. -/
def Tide.serveLevel (t : Tide) (g : Gauge) (r : GaugeRec) (wasGood : Bool) (now : Clock) : Tide × List TideEvent :=
  match decide (r.state = .good), r.level with
  | true, some x => t.offerTo (gaugeSignal g) x now allThresholds
  | true, none => (t, [])
  | false, _ => if wasGood then (t.forget (gaugeSignal g), []) else (t, [])

/-- Steps 2 to 4 of R114, after step 1 has left record `r` for gauge `g`. -/
def Tide.serve (t : Tide) (g : Gauge) (r : GaugeRec) (now : Clock) : Tide × List TideEvent × HeadChange :=
  let wasGood := decide ((t.gauge g).state = .good)
  let a := (t.setGauge g r).keepHistory g r wasGood now
  let b := a.1.serveLevel g r wasGood now
  let c := b.1.formHead (decide (r.state = .good)) now
  (c.1, a.2 ++ b.2 ++ c.2.1, c.2.2)

/-- The events of step 1 (R125). -/
def gaugeEvents (g : Gauge) (e : Option (EventKind × Int)) (now : Clock) : List TideEvent :=
  match e with
  | some (k, v) => [{ kind := k, index := none, gauge := some g, value := v, time := now }]
  | none => []

/-- A gauge sample: steps 1 to 4 of R114, with the events in the order they are raised (R125). -/
def Tide.sample (t : Tide) (g : Gauge) (x : Int) (now : Clock) : Tide × List TideEvent × HeadChange :=
  let r := (t.gauge g).sample x
  let res := t.serve g r.1 now
  (res.1, gaugeEvents g r.2 now ++ res.2.1, res.2.2)

/-- A silence expiry: steps 1 to 4 of R114 with step 1 under R113. -/
def Tide.silent (t : Tide) (g : Gauge) (now : Clock) : Tide × List TideEvent × HeadChange :=
  let r := (t.gauge g).silent
  let res := t.serve g r.1 now
  (res.1, gaugeEvents g r.2 now ++ res.2.1, res.2.2)

end Sys2Proof.Machine
end

