-- ==== Sys2Proof/Machine/Mode.lean ====
section
/-! DEFINITION. Mode control (chapter 10): changes of mode, drains and their end, warm reset and its end; and the end of
an event, where the report of no RUNNING slot and the grant round are taken (R78, R189; log 17). -/

namespace Sys2Proof.Machine

/-! ### Changes of mode -/

/-- A change of mode or flavour with its MODE notice (R184). -/
def State.changeMode (s : State) (m : DeviceMode) (f : Option Flavour) (c : ModeCause) : State :=
  (s.setMode m f).notify (.mode m f (some s.mode) c s.clock)

/-- Every queue is emptied: level 0, read position at the base (R151, R164). -/
def Queue.emptied (q : Queue) : Queue := { q with points := [], readPos := q.base }

/-- The end of RESETTING is tested: every present gate PARKED or TRIPPED (R191). -/
def State.resetEndTest (s : State) : State :=
  if s.mode = .resetting ∧ (allGates.all fun g => !(s.gate g).state.moving) = true then
    ({ s with queues := Vector.ofFn fun g => (s.queue g).emptied }).changeMode .config none .warmReset
  else s

/-- The report that no slot is RUNNING, if the event has brought it about (R189). -/
def State.takeReport (s : State) : State :=
  if s.marks.reportDue then
    let s := s.markReport false
    match s.mode with
    | .draining => s.changeMode .config none .drainEnd
    | .resetting => s.resetEndTest
    | _ => s
  else s

/-- The end of every event: the report, then the grant round (R78, R189). -/
def State.finish (s : State) : State := s.takeReport.takeRound

/-! ### RUN, HOLD, STOP_ALL -/

/-- The mode becomes RUN and a round opens (R186). -/
def State.toRun (s : State) : State := (s.changeMode .run none .request).openRound

/-- A HOLD drain begins (R187). -/
def State.beginHold (s : State) : State :=
  let s := s.changeMode .draining (some .hold) .request
  (allGates.foldl State.cutStream (allSlots.foldl State.ungrant s)).noteRunning

/-- What a STOP drain stops (R188). -/
inductive StopItem where
  | gate (g : GateNo) | slot (k : SlotNo) | runner
  deriving DecidableEq, Repr

/-- One stop of a STOP drain (R41, R60, R181, R188). -/
def State.stopItem (s : State) : StopItem → State
  | .gate g => s.stopMove g
  | .slot k =>
    match (s.slot k).order with
    | some o => s.completeGranted k .stopped none (s.gate o.gate).endL.held (s.gate o.gate).endR.held
    | none => s
  | .runner => s.stopRunner

/-- The stops that a STOP drain has to give (R188). -/
def State.stopItems (s : State) : List StopItem :=
  (allGates.filter fun g => (s.gate g).state.moving).map StopItem.gate
    ++ (allSlots.filter fun k => (s.slot k).state == .granted).map StopItem.slot
    ++ (if s.runner.state = .idle then [] else [.runner])

/-- The stops of a STOP drain, in a free order (log 8), and then the table's report (R188). -/
def State.giveStops (s : State) : State :=
  let items := s.stopItems
  let s' := if 2 ≤ items.length then s.bump else s
  ((freeOrder s.freeCount items).foldl State.stopItem s').noteRunning

/-- A STOP drain begins or overtakes a HOLD drain (R188). -/
def State.beginStop (s : State) : State := (s.changeMode .draining (some .stop) .request).giveStops

/-! ### Warm reset -/

/-- The start of warm reset at the blocks: table, gates, runner (R190, step 4). -/
def State.resetBlocks (s : State) : State :=
  (allGates.foldl State.resetMove (allSlots.foldl State.resetSlot (s.setLock none))).resetRunner

/-- A warm reset, from the discarding of waiting replies and notices to the test of its end (R190). -/
def State.warmReset (s : State) (reply : Reply) : State :=
  let s := s.setLink { s.link with replies := [], notices := [] }
  let s := s.placeReply reply
  let s := s.changeMode .resetting none .request
  (s.resetBlocks.resetEndTest.markReport false).takeRound

/-! ### The envelope hand-over and the tide events of an arrival -/

/-- The band after a head change (R131). -/
def Envelope.follow (e : Envelope) : HeadChange → Envelope
  | .none => e
  | .sample h => { e with band := some (bandOf e.boundaries h) }
  | .lost => { e with band := none }

/-- The gates whose ceiling has fallen since `old` and whose target that limits (R131, R137). -/
def State.fallen (s : State) (old : State) : List GateNo :=
  allGates.filter fun g => decide (s.ceiling g < old.ceiling g) && (s.fallChange g).isSome

/-- The hand-over to the envelope unit, with the in-flight checks it calls for (R131, R137), in a free order (log 9). A
report that a check brings about is acted on before the tide events (log 23). -/
def State.handOver (s : State) (c : HeadChange) : State :=
  let s' := s.setEnvelope (s.envelope.follow c)
  let l := s'.fallen s
  let s'' := if 2 ≤ l.length then s'.bump else s'
  ((freeOrder s.freeCount l).foldl State.checkFall s'').takeReport

/-- One tide event handed on: the notice, then the match (R126). -/
def State.handEvent (s : State) (e : TideEvent) : State := (s.notify (.tideEvent e)).matchEvent e

/-- Steps 5 and 6 of R114, after the monitor has taken steps 1 to 4. -/
def State.afterTide (s : State) (res : Tide × List TideEvent × HeadChange) : State :=
  res.2.1.foldl State.handEvent ((s.setTide res.1).handOver res.2.2)

/-- A gauge sample arrives (R114). -/
def State.gaugeSample (s : State) (g : Gauge) (x : Int) : State := s.afterTide (s.tide.sample g x s.clock)

/-- A gauge's silence timer expires (R113, R114). -/
def State.gaugeSilence (s : State) (g : Gauge) : State :=
  match (s.tide.gauge g).silence with
  | some _ => s.afterTide (s.tide.silent g s.clock)
  | none => s

end Sys2Proof.Machine
end

