-- ==== Sys2Proof/Machine/Operands.lean ====
section
/-! DEFINITION. The fields of requests: the ranges their owning rules give and the values they stand for (R206). A list
of checks gives the number of the first field that fails. -/

namespace Sys2Proof.Machine

/-! ### Checks -/

/-- The number of the first field whose check fails. -/
def firstBad : List (Nat × Bool) → Option Nat
  | [] => none
  | (n, ok) :: rest => if ok then firstBad rest else some n

/-- A number lies in a range, both ends included. -/
def inNat (lo hi x : Nat) : Bool := decide (lo ≤ x) && decide (x ≤ hi)

/-- A number of millimetres lies in a range, both ends included. -/
def inInt (lo hi x : Int) : Bool := decide (lo ≤ x) && decide (x ≤ hi)

/-! ### Numbers and coded values -/

/-- A gate number (R206). -/
def gateOf (n : Nat) : Option GateNo := if h : n < 6 then some ⟨n, h⟩ else none
/-- A slot number (R206). -/
def slotOf (n : Nat) : Option SlotNo := if h : n < 24 then some ⟨n, h⟩ else none
/-- A unit number (R206). -/
def unitOf (n : Nat) : Option UnitNo := if h : n < 3 then some ⟨n, h⟩ else none
/-- A threshold number (R206). -/
def thrOf (n : Nat) : Option ThrNo := if h : n < 8 then some ⟨n, h⟩ else none
/-- A step number (R206). -/
def stepOf (n : Nat) : Option StepNo := if h : n < 16 then some ⟨n, h⟩ else none

/-- SET 0, STREAM 1, LEVEL 2 (R207). -/
def kindOf : Nat → Option OrderKind
  | 0 => some .set
  | 1 => some .stream
  | 2 => some .level
  | _ => none

/-- SLOW 0, NORMAL 1, FAST 2 (R207). -/
def speedOf : Nat → Option Speed
  | 0 => some .slow
  | 1 => some .normal
  | 2 => some .fast
  | _ => none

/-- CLAMP 0, REFUSE 1, OVERRIDE 2 (R207). -/
def ruleOf : Nat → Option EnvRule
  | 0 => some .clamp
  | 1 => some .refuse
  | 2 => some .override
  | _ => none

/-- ONCE 0, REARM 1 (R207). -/
def repOf : Nat → Option Rep
  | 0 => some .once
  | 1 => some .rearm
  | _ => none

/-- The event kind codes of R206. -/
def eventOf : Nat → Option EventKind
  | 0 => some .rise
  | 1 => some .fall
  | 2 => some .turnEbb
  | 3 => some .turnFlood
  | 4 => some .surge
  | 5 => some .gaugeFault
  | 6 => some .gaugeOk
  | _ => none

/-- UP 0, DOWN 1, HEAD 2 (R116; log 16). -/
def signalOf : Nat → Option Signal
  | 0 => some .up
  | 1 => some .down
  | 2 => some .head
  | _ => none

/-- FALLING 0, RISING 1 (R207). -/
def limitDirOf : Nat → Option LimitDir
  | 0 => some .falling
  | 1 => some .rising
  | _ => none

/-- PLAIN 0, MARK 1, END 2 (R145; log 16). -/
def tagOf : Nat → Option PointTag
  | 0 => some .plain
  | 1 => some .mark
  | 2 => some .last
  | _ => none

/-- GATE_FIRST 0, STEP_FIRST 1 (R166; log 16). -/
def advanceOf : Nat → Option Advance
  | 0 => some .gateFirst
  | 1 => some .stepFirst
  | _ => none

/-- PRIORITY 0, SLOT_ORDER 1 (R91; log 16). -/
def arbModeOf : Nat → Option ArbMode
  | 0 => some .priority
  | 1 => some .slotOrder
  | _ => none

/-! ### CONFIGURE_GATE (R11) -/

/-- Fields 3 to 21 in field order (R11). -/
def gateChecks (p : RawGate) : List (Nat × Bool) :=
  [(3, inInt 500 12000 p.openingMax), (4, inNat 0 1 p.swap), (5, inNat 0 1 p.lDir), (6, inNat 0 16777215 p.lZero),
   (7, inNat 10 1000 p.lScale), (8, inNat 0 1 p.rDir), (9, inNat 0 16777215 p.rZero), (10, inNat 10 1000 p.rScale),
   (11, inInt 2 50 p.deadband), (12, inInt 10 200 p.skewTrim), (13, inInt (p.skewTrim + 10) 400 p.skewTrip),
   (14, inInt 50 1000 p.approach), (15, inNat 1 15 p.releaseTime), (16, inNat 1 15 p.buildSteps),
   (17, inNat 20 250 p.buildPressure), (18, inNat 1 15 p.lockTime), (19, inNat 2 32 p.quietCount),
   (20, inNat 1 7 p.permitted), (21, inNat 0 1 p.overrideAllowed)]

/-- UP_COUNTS 0, DOWN_COUNTS 1 (R11; log 16). -/
def countDirOf (n : Nat) : CountDir := if n = 0 then .upCounts else .downCounts

/-- The parameters that checked fields stand for (R11). -/
def gateParamsOf (p : RawGate) : GateParams :=
  { openingMax := p.openingMax, swap := if p.swap = 0 then .normal else .swapped, lDir := countDirOf p.lDir,
    lZero := p.lZero, lScale := p.lScale, rDir := countDirOf p.rDir, rZero := p.rZero, rScale := p.rScale,
    deadband := p.deadband, skewTrim := p.skewTrim, skewTrip := p.skewTrip, approach := p.approach,
    releaseTime := p.releaseTime, buildSteps := p.buildSteps, buildPressure := p.buildPressure,
    lockTime := p.lockTime, quietCount := p.quietCount, permitted := BitVec.ofNat 3 p.permitted,
    overrideAllowed := p.overrideAllowed == 1 }

/-! ### POST_ORDER (R49) -/

/-- The target of field 4: absent, or present with its value (R206). -/
def targetOf (f : RawOrder) : Option Int := if f.targetPresence = 0 then none else some f.target

/-- The trigger of field 8, ANY being 7 for the kind and 8 for the index (R206). -/
def triggerOf (f : RawOrder) : Option Trigger :=
  if f.triggerPresence = 0 then none else some { kind := eventOf f.eventKind, index := thrOf f.thrIndex }

/-- Field 8 in its range: the presence byte, the event kind, the threshold index (R45, R199). -/
def triggerOk (f : RawOrder) : Bool :=
  inNat 0 1 f.triggerPresence && (f.triggerPresence == 0 || (inNat 0 7 f.eventKind && inNat 0 8 f.thrIndex))

/-- Field 4 in its range (R49, R199). -/
def targetOk (f : RawOrder) : Bool :=
  inNat 0 1 f.targetPresence && (f.targetPresence == 0 || inInt 0 12000 f.target)

/-- Checks 1 to 4 of R49 in their sequence: the ten fields, then target with kind, index with kind, trigger with
REARM. -/
def orderChecks (slot : Nat) (f : RawOrder) : List (Nat × Bool) :=
  [(1, inNat 0 23 slot), (2, (kindOf f.kind).isSome), (3, inNat 0 5 f.gate), (4, targetOk f),
   (5, (speedOf f.speed).isSome), (6, inNat 0 15 f.priority), (7, (ruleOf f.rule).isSome), (8, triggerOk f),
   (9, (repOf f.rep).isSome), (10, inNat 0 65535 f.tag),
   (4, (f.kind == 0) == (f.targetPresence == 1)),
   (8, f.triggerPresence == 0 || !inNat 2 6 f.eventKind || f.thrIndex == 8),
   (9, f.rep == 0 || f.triggerPresence == 1)]

/-- The order that checked fields stand for (R45). -/
def orderOf (f : RawOrder) (g : GateNo) : Order :=
  { kind := (kindOf f.kind).getD .set, gate := g, target := targetOf f, speed := (speedOf f.speed).getD .slow,
    priority := f.priority, rule := (ruleOf f.rule).getD .clamp, trigger := triggerOf f,
    rep := (repOf f.rep).getD .once, tag := f.tag }

/-! ### The other blocks -/

/-- CONFIGURE_TIDE (R127). -/
def tideChecks (f : RawTide) : List (Nat × Bool) :=
  [(1, inInt (-5000) 14999 f.upLow), (2, inInt (f.upLow + 1) 15000 f.upHigh), (3, inInt (-5000) 14999 f.downLow),
   (4, inInt (f.downLow + 1) 15000 f.downHigh), (5, inInt 0 500 f.turnBand), (6, inNat 2 64 f.turnConfirm),
   (7, inInt 10 2000 f.surgeRate)]

/-- The level range of a threshold signal (R116). -/
def levelOk (signal : Nat) (x : Int) : Bool := if signal = 2 then inInt (-20000) 20000 x else inInt (-5000) 15000 x

/-- CONFIGURE_THRESHOLD (R119). -/
def thresholdChecks (f : RawThreshold) : List (Nat × Bool) :=
  [(1, inNat 0 7 f.index), (2, (signalOf f.signal).isSome), (3, levelOk f.signal f.level),
   (4, inInt 0 1000 f.hysteresis), (5, inNat 0 1 f.enabled)]

/-- The boundaries of CONFIGURE_ENVELOPE from field `n` on, each above the one before it (R141). -/
def boundaryChecks : Nat → Option Int → List Int → List (Nat × Bool)
  | _, _, [] => []
  | n, before, x :: rest =>
    (n, inInt (-20000) 20000 x && match before with
      | none => true
      | some y => decide (y < x)) :: boundaryChecks (n + 1) (some x) rest

/-- The cells of CONFIGURE_ENVELOPE, cell `i` against the opening_max of gate `i` mod 6 (R141). -/
def cellChecks (openingMax : Nat → Int) : Nat → List Int → List (Nat × Bool)
  | _, [] => []
  | i, x :: rest => (8 + i, inInt 0 (openingMax (i % 6)) x) :: cellChecks openingMax (i + 1) rest

/-- CONFIGURE_QUEUE, check 1 (R144): base plus size greater than 256 fails field 3. -/
def queueChecks (f : RawQueue) : List (Nat × Bool) :=
  [(1, inNat 0 5 f.gate), (2, inNat 0 255 f.base),
   (3, [0, 4, 8, 16, 32, 64, 128].contains f.size && decide (f.base + f.size ≤ 256)), (4, inNat 0 f.size f.limit),
   (5, (limitDirOf f.limitDir).isSome), (6, inNat 1 600 f.holdTime)]

/-- The items of point `i` of PUSH_POINTS, counting from 0 (R146, R147). -/
def pointChecks : Nat → List RawPoint → List (Nat × Bool)
  | _, [] => []
  | i, p :: rest =>
    (3 + 3 * i, inInt 0 12000 p.target) :: (4 + 3 * i, inNat 1 6000 p.stepTime)
      :: (5 + 3 * i, (tagOf p.tag).isSome) :: pointChecks (i + 1) rest

/-- PUSH_POINTS, check 4: no target above opening_max (R147). -/
def pointLimits (openingMax : Int) : Nat → List RawPoint → List (Nat × Bool)
  | _, [] => []
  | i, p :: rest => (3 + 3 * i, decide (p.target ≤ openingMax)) :: pointLimits openingMax (i + 1) rest

/-- The point that checked items stand for (R145). -/
def pointOf (p : RawPoint) : Point :=
  { target := p.target, stepTime := p.stepTime, tag := (tagOf p.tag).getD .plain }

/-- SET_LOAD_WINDOW (R166). -/
def windowChecks (f : RawWindow) : List (Nat × Bool) :=
  [(1, inNat 0 15 f.firstStep), (2, inNat f.firstStep 15 f.lastStep), (3, inNat 0 5 f.firstGate),
   (4, inNat f.firstGate 5 f.lastGate), (5, (advanceOf f.advance).isSome)]

/-- A value of WRITE_CELLS: EMPTY or 0 to 12 000 mm (R167). -/
def cellValueOk (x : Nat) : Bool := x == 65535 || inNat 0 12000 x

/-- The cell that a checked value stands for (R206). -/
def cellOf (x : Nat) : Option Int := if x = 65535 then none else some (x : Int)

/-- The values of WRITE_CELLS, value `i` counting from 0 (R167). -/
def valueChecks : Nat → List Nat → List (Nat × Bool)
  | _, [] => []
  | i, x :: rest => (2 + i, cellValueOk x) :: valueChecks (i + 1) rest

/-- DEFINE_SEQUENCE (R170). -/
def sequenceChecks (f : RawSequence) : List (Nat × Bool) :=
  [(1, inNat 0 15 f.firstStep), (2, inNat f.firstStep 15 f.lastStep), (3, inNat 1 255 f.repetitions),
   (4, inNat 0 23 f.windowFirst), (5, inNat f.windowFirst 23 f.windowLast), (6, inNat 0 15 f.priority),
   (7, (speedOf f.speed).isSome), (8, (ruleOf f.rule).isSome)]

/-- The ten fields of SET_NOTICES (R203). -/
def noticeChecks : Nat → List Nat → List (Nat × Bool)
  | _, [] => []
  | i, x :: rest => (i + 1, inNat 0 1 x) :: noticeChecks (i + 1) rest

end Sys2Proof.Machine
end

