-- ==== Sys2Proof/Machine/Answers.lean ====
section
/-! DEFINITION. What each owning block does with a request that has passed the mode test (R192): the answer and the
state. A refusal leaves the state as it was (R205). -/

namespace Sys2Proof.Machine

/-- Status, detail byte and data of a reply (R205). -/
structure Answer where
  status : Status
  detail : Nat
  data : List Byte
  deriving DecidableEq, Repr

/-- OK with data. -/
def Answer.ok (data : List Byte) : Answer := { status := .ok, detail := 0, data := data }
/-- A status other than BAD_VALUE, without data. -/
def Answer.of (st : Status) : Answer := { status := st, detail := 0, data := [] }
/-- BAD_VALUE with its field number. -/
def Answer.bad (field : Nat) : Answer := { status := .badValue, detail := field, data := [] }

/-- Refused: the state stays. -/
def State.refuse (s : State) (st : Status) : Answer × State := (.of st, s)
/-- Refused for a field: the state stays. -/
def State.refuseField (s : State) (n : Nat) : Answer × State := (.bad n, s)
/-- Taken with OK and no data; the event's report and round follow. -/
def State.taken (s : State) : Answer × State := (.ok [], s.finish)

/-- Go on with a request whose fields pass; refuse it at the first that fails. -/
def State.checked (s : State) (l : List (Nat × Bool)) (f : Answer × State) : Answer × State :=
  match firstBad l with
  | some n => s.refuseField n
  | none => f

/-- Go on with a number that names something; refuse field 1 otherwise. -/
def State.named {α : Type} (s : State) (x : Option α) (f : α → Answer × State) : Answer × State :=
  match x with
  | some a => f a
  | none => s.refuseField 1

/-! ### Mode control -/

/-- STATUS (R194): the two marks are cleared once the reply is formed. -/
def State.serveStatus (s : State) : Answer × State :=
  (.ok s.encStatus, s.setLink { s.link with noticesLost := false, linkError := false })

/-- SET_CLOCK (R193). -/
def State.serveSetClock (s : State) (v : Clock) : Answer × State := (.ok (encClock v), { s with clock := v })

/-- A RUN, HOLD or STOP_ALL answer: the mode and flavour as they stand after the request (R186). -/
def State.withMode (st : Status) (s : State) : Answer × State := ({ status := st, detail := 0, data := s.encMode }, s)

/-- At least one gate is present. -/
def State.anyPresent (s : State) : Bool := allGates.any fun g => (s.gate g).state.present

/-- RUN (R186). -/
def State.serveRun (s : State) : Answer × State :=
  match s.mode, s.flavour with
  | .config, _ => if s.anyPresent then State.withMode .ok s.toRun.finish else State.withMode .noGates s
  | .run, _ => State.withMode .ok s
  | .draining, some .stop => State.withMode .wrongMode s
  | .draining, _ => State.withMode .ok s.toRun.finish
  | .resetting, _ => State.withMode .resetting s

/-- HOLD (R187). -/
def State.serveHold (s : State) : Answer × State :=
  match s.mode with
  | .run => State.withMode .ok s.beginHold.finish
  | .resetting => State.withMode .resetting s
  | _ => State.withMode .ok s

/-- STOP_ALL (R188). -/
def State.serveStopAll (s : State) : Answer × State :=
  match s.mode, s.flavour with
  | .run, _ => State.withMode .ok s.beginStop.finish
  | .draining, some .stop => State.withMode .ok s.giveStops.finish
  | .draining, _ => State.withMode .ok s.beginStop.finish
  | .config, _ => State.withMode .ok s.stopRunner.finish
  | .resetting, _ => State.withMode .resetting s

/-- SET_NOTICES (R203). -/
def State.serveSetNotices (s : State) (flags : List Nat) : Answer × State :=
  s.checked (noticeChecks 0 flags)
    (let e : Vector Bool 10 := Vector.ofFn fun i => (flags.getD i.val 0) == 1
     (.ok ((List.finRange 10).map fun i => if e.get i then 1 else 0), s.setLink { s.link with enables := e }))

/-! ### Gates -/

/-- An end as CONFIGURE_GATE with PRESENT leaves it (R6, R13). -/
def EndRec.reconfigured (e : EndRec) : EndRec :=
  { e with status := .unknown, held := none, reference := none, silence := some Config.encoderSilence, recovery := 0 }

/-- The gate record after CONFIGURE_GATE with PRESENT (R13). -/
def GateRec.configured (r : GateRec) (p : GateParams) : GateRec :=
  let r' := { r with params := p }.modEnds EndRec.reconfigured
  if r.state = .absent then { r' with state := .parked, move := .empty, levelRequired := false, trip := none } else r'

/-- CONFIGURE_GATE with a presence byte other than 0 (R11, R13). -/
def State.serveGatePresent (s : State) (gate presence : Nat) (p : RawGate) : Answer × State :=
  s.checked [(1, inNat 0 5 gate), (2, inNat 0 1 presence)]
    (s.named (gateOf gate) fun g =>
      s.checked (gateChecks p) (s.modGate g fun r => r.configured (gateParamsOf p)).taken)

/-- A slot names the gate and is ARMED or PENDING (R12). -/
def State.awaitsGate (s : State) (g : GateNo) : Bool :=
  allSlots.any fun k => (s.slot k).isFor g && ((s.slot k).state == .armed || (s.slot k).state == .pending)

/-- The gate record after CONFIGURE_GATE with ABSENT: all but the parameters is discarded (R12). -/
def GateRec.removed (r : GateRec) : GateRec := { GateRec.cold with params := r.params }

/-- CONFIGURE_GATE with presence ABSENT (R11, R12). -/
def State.serveGateAbsent (s : State) (gate : Nat) : Answer × State :=
  s.named (gateOf gate) fun g =>
    if (s.gate g).state = .absent then s.taken
    else if s.awaitsGate g then s.refuse .slotBusy
    else (s.modGate g GateRec.removed).taken

/-- READ_GATE (R15). -/
def State.serveReadGate (s : State) (gate : Nat) : Answer × State :=
  s.named (gateOf gate) fun g => (.ok (s.encGate g), s)

/-- STOP_GATE (R41). -/
def State.serveStopGate (s : State) (gate : Nat) : Answer × State :=
  s.named (gateOf gate) fun g =>
    let r := s.gate g
    match r.state, s.grantedFor g with
    | .absent, _ => s.refuse .nothingToStop
    | .tripped, _ => s.refuse .nothingToStop
    | .parked, none => s.refuse .nothingToStop
    | .parked, some k => (s.completeGranted k .stopped none r.endL.held r.endR.held).taken
    | _, _ => (s.stopMove g).taken

/-- The gate record after CLEAR_TRIP (R37). -/
def GateRec.cleared (r : GateRec) : GateRec :=
  let skewed := match r.trip, r.skew with
    | some t, some k => (t.first == .skew || hasCause t.further .skew) && decide (r.params.skewTrim < mag k)
    | _, _ => false
  { r with state := .parked, phase := none, trip := none, levelRequired := r.levelRequired || skewed }

/-- CLEAR_TRIP (R37). -/
def State.serveClearTrip (s : State) (gate : Nat) : Answer × State :=
  s.named (gateOf gate) fun g =>
    let r := s.gate g
    match r.state with
    | .absent => s.refuse .gateAbsent
    | .tripped =>
      if r.endL.status = .good ∧ r.endR.status = .good ∧ s.bothPins g .engaged = true then
        ((s.modGate g GateRec.cleared).openRound).taken
      else s.refuse .tripPersists
    | _ => s.refuse .notTripped

/-! ### The order table and the arbiter -/

/-- A slot of owner SEQUENCE in PENDING, GRANTED or DONE: writing or freeing it is interference (R52). -/
def Slot.ofRunner (k : Slot) : Bool :=
  k.owner == .sequence && (k.state == .pending || k.state == .granted || k.state == .done)

/-- The notice of interference for a slot that was the runner's (R52). -/
def State.interfereIf (s : State) (old : Slot) (k : SlotNo) : State := if old.ofRunner then s.interfere k else s

/-- POST_ORDER passed (R50): the order written, a grant abandoned, the runner told. -/
def State.postOrder (s : State) (k : SlotNo) (o : Order) : State :=
  let old := s.slot k
  ((s.writeOrder k o .host).handBackOf old).interfereIf old k

/-- POST_ORDER (R49, R50). -/
def State.servePostOrder (s : State) (slot : Nat) (f : RawOrder) : Answer × State :=
  s.checked (orderChecks slot f)
    (s.named (slotOf slot) fun k =>
      s.named (gateOf f.gate) fun g =>
        let r := s.gate g
        if r.state = .absent then s.refuse .gateAbsent
        else if f.kind = 0 ∧ r.params.openingMax < f.target then s.refuseField 4
        else if ruleOf f.rule = some .override ∧ r.params.overrideAllowed = false then s.refuse .notPermitted
        else if (s.slot k).state = .running then s.refuse .slotBusy
        else (s.postOrder k (orderOf f g)).taken)

/-- WITHDRAW_ORDER taken: the slot freed, a grant abandoned, the runner told (R51, R52). -/
def State.withdrawOrder (s : State) (k : SlotNo) : State :=
  let old := s.slot k
  ((s.freeSlot k).handBackOf old).interfereIf old k

/-- WITHDRAW_ORDER (R51). -/
def State.serveWithdraw (s : State) (slot : Nat) : Answer × State :=
  s.named (slotOf slot) fun k =>
    match (s.slot k).state with
    | .free => s.taken
    | .running => s.refuse .slotBusy
    | _ => (s.withdrawOrder k).taken

/-- READ_SLOT (R63, R64): the other lock released, the lock taken, the reply formed, the marks cleared. -/
def State.serveReadSlot (s : State) (slot : Nat) : Answer × State :=
  s.named (slotOf slot) fun k =>
    let locked := (s.releaseOther k).takeLock k
    (.ok (encSlot (s.slot k) (locked.locked k)), (locked.modSlot k Slot.markRead).finish)

/-- UNLOCK (R65). -/
def State.serveUnlock (s : State) (slot : Nat) : Answer × State :=
  s.named (slotOf slot) fun k => if s.lock = some k then (s.releaseLock k).taken else s.taken

/-- LIST_SLOTS (R67). -/
def State.serveListSlots (s : State) : Answer × State := (.ok s.encSlots, s)

/-- CONFIGURE_ARBITER (R91). -/
def State.serveArbiter (s : State) (mode : Nat) : Answer × State :=
  s.named (arbModeOf mode) fun m => (.ok (encU8 m.code), { s with arbitration := m })

/-! ### Power units -/

/-- CONFIGURE_UNIT (R108). -/
def State.serveUnit (s : State) (unit idleTime : Nat) : Answer × State :=
  s.named (unitOf unit) fun u =>
    s.checked [(2, inNat 10 600 idleTime)] (s.modUnit u fun r => { r with idleTime := idleTime }).taken

/-- SET_UNIT_SERVICE with OUT (R106). -/
def State.serveServiceOut (s : State) (u : UnitNo) : Answer × State :=
  match (s.unit u).state with
  | .off | .idle => (s.takeOut u .maintenance).taken
  | .outOfService => s.taken
  | _ => s.refuse .unitBusy

/-- A unit returns to service, with its UNIT_STATE notice and a round (R105, R107). -/
def State.returnUnit (s : State) (u : UnitNo) : State :=
  ((s.modUnit u PowerUnit.toOff).notify
    (.unitState u .into ((s.unit u).cause.getD .maintenance) s.clock)).openRound

/-- SET_UNIT_SERVICE with IN (R107). -/
def State.serveServiceIn (s : State) (u : UnitNo) : Answer × State :=
  match (s.unit u).state with
  | .outOfService => if (s.unitInput u).fault then s.refuse .faultPresent else (s.returnUnit u).taken
  | _ => s.taken

/-- SET_UNIT_SERVICE (R106, R107): OUT 0, IN 1 (R207). -/
def State.serveService (s : State) (unit service : Nat) : Answer × State :=
  s.named (unitOf unit) fun u =>
    match service with
    | 0 => s.serveServiceOut u
    | 1 => s.serveServiceIn u
    | _ => s.refuseField 2

end Sys2Proof.Machine
end

