-- ==== Sys2Proof/Machine/Answers2.lean ====
section
/-! DEFINITION. The requests of the tide monitor, the envelope unit, the profile pool, the stage table and the sequence
runner, once they have passed the mode test (R192). -/

namespace Sys2Proof.Machine

/-! ### Tide monitor and envelope -/

/-- The monitor after CONFIGURE_TIDE (R127). -/
def Tide.configured (t : Tide) (f : RawTide) : Tide :=
  { t with up := { t.up with low := f.upLow, high := f.upHigh },
           down := { t.down with low := f.downLow, high := f.downHigh },
           turnBand := f.turnBand, turnConfirm := f.turnConfirm, surgeRate := f.surgeRate, confirmCount := 0,
           confirmSide := none }

/-- CONFIGURE_TIDE (R127). -/
def State.serveTide (s : State) (f : RawTide) : Answer × State :=
  s.checked (tideChecks f) (s.setTide (s.tide.configured f)).taken

/-- CONFIGURE_THRESHOLD (R119). -/
def State.serveThreshold (s : State) (f : RawThreshold) : Answer × State :=
  s.checked (thresholdChecks f)
    (s.named (thrOf f.index) fun i =>
      (s.setTide (s.tide.setThreshold i
        { signal := (signalOf f.signal).getD .up, level := f.level, hysteresis := f.hysteresis,
          enabled := f.enabled == 1, state := .unknown })).taken)

/-- READ_TIDE (R128). -/
def State.serveReadTide (s : State) : Answer × State := (.ok s.encTide, s)

/-- The envelope after CONFIGURE_ENVELOPE; a known head is placed in its band afresh (R141). -/
def Envelope.configured (head : Option Int) (boundaries cells : List Int) : Envelope :=
  let b : Vector Int 7 := Vector.ofFn fun i => boundaries.getD i.val 0
  { boundaries := b, cells := Vector.ofFn fun i => Vector.ofFn fun j => cells.getD (6 * i.val + j.val) 0,
    band := head.map (bandOf b) }

/-- The opening_max of gate `i` (R141). -/
def State.openingMaxOf (s : State) (i : Nat) : Int :=
  match gateOf i with
  | some g => (s.gate g).params.openingMax
  | none => 0

/-- CONFIGURE_ENVELOPE (R141). -/
def State.serveEnvelope (s : State) (boundaries cells : List Int) : Answer × State :=
  s.checked (boundaryChecks 1 none boundaries ++ cellChecks s.openingMaxOf 0 cells)
    (s.setEnvelope (Envelope.configured s.tide.head boundaries cells)).taken

/-! ### Profile pool -/

/-- The new partition shares a cell with another gate's (R144). -/
def State.overlapsOther (s : State) (g : GateNo) (base size : Nat) : Bool :=
  allGates.any fun h => h != g && (s.queue h).overlaps base size

/-- The queue after CONFIGURE_QUEUE (R144). -/
def Queue.configured (q : Queue) (f : RawQueue) : Queue :=
  { q with base := f.base, size := f.size, limit := f.limit,
           limitDir := (limitDirOf f.limitDir).getD .falling, holdTime := f.holdTime,
           readPos := if q.base = f.base ∧ q.size = f.size then q.readPos else f.base }

/-- CONFIGURE_QUEUE (R144). -/
def State.serveQueue (s : State) (f : RawQueue) : Answer × State :=
  s.checked (queueChecks f)
    (s.named (gateOf f.gate) fun g =>
      let q := s.queue g
      if ¬(q.base = f.base ∧ q.size = f.size) ∧ q.points ≠ [] then s.refuse .notEmpty
      else if 0 < f.size ∧ s.overlapsOther g f.base f.size = true then s.refuse .overlap
      else (s.setQueue g (q.configured f)).taken)

/-- Points appended as far as the queue has room (R148). -/
def Queue.appended (q : Queue) (l : List Point) : Queue := { q with points := q.points ++ l.take (q.size - q.level) }

/-- The push takes the level from the limit or below to above it, the direction being RISING (R149). -/
def Queue.rises (q : Queue) (after : Nat) : Bool :=
  q.limitDir == .rising && decide (q.level ≤ q.limit) && decide (q.limit < after)

/-- A push that passes its checks (R148): the points appended, the RISING test, and a HELD gate resumed. -/
def State.push (s : State) (g : GateNo) (l : List Point) : State :=
  let q := s.queue g
  let q' := q.appended l
  let s := s.setQueue g q'
  let s := if q.rises q'.level then s.notify (.profileLevel g q'.level q.limit .rising s.clock) else s
  if (s.gate g).state = .held ∧ q.level < q'.level then s.enterTravel g else s

/-- PUSH_POINTS (R146 to R148). -/
def State.servePush (s : State) (gate : Nat) (points : List RawPoint) : Answer × State :=
  s.checked ((1, inNat 0 5 gate) :: (2, inNat 1 16 points.length) :: pointChecks 0 points)
    (s.named (gateOf gate) fun g =>
      if (s.gate g).state = .absent then s.refuse .gateAbsent
      else if (s.queue g).size = 0 then s.refuse .noQueue
      else s.checked (pointLimits (s.gate g).params.openingMax 0 points)
        (let n := min points.length ((s.queue g).size - (s.queue g).level)
         ({ status := if n < points.length then .queueFull else .ok, detail := 0, data := encU8 n },
           (s.push g (points.map pointOf)).finish)))

/-- PEEK_POINTS (R150). -/
def State.servePeek (s : State) (gate position count : Nat) : Answer × State :=
  s.checked [(1, inNat 0 5 gate), (2, inNat 0 127 position), (3, inNat 1 16 count)]
    (s.named (gateOf gate) fun g =>
      let q := s.queue g
      if q.size = 0 then s.refuse .noQueue
      else
        let l := (q.points.drop position).take count
        (.ok (encU8 q.level ++ encU8 l.length ++ (l.map encPoint).flatten), s))

/-- A STREAM order for the gate is GRANTED or RUNNING (R151). -/
def State.streamActive (s : State) (g : GateNo) : Bool :=
  allSlots.any fun k =>
    ((s.slot k).state == .granted || (s.slot k).state == .running) &&
      match (s.slot k).order with
      | some o => o.gate == g && o.kind == .stream
      | none => false

/-- FLUSH_POINTS (R151). That NO_QUEUE comes before STREAM_ACTIVE where both hold is the model's choice (DESIGN CHOICE,
log 33). -/
def State.serveFlush (s : State) (gate : Nat) : Answer × State :=
  s.named (gateOf gate) fun g =>
    if (s.queue g).size = 0 then s.refuse .noQueue
    else if s.streamActive g then s.refuse .streamActive
    else (s.setQueue g (s.queue g).emptied).taken

/-- READ_QUEUE (R152). -/
def State.serveReadQueue (s : State) (gate : Nat) : Answer × State :=
  s.named (gateOf gate) fun g => (.ok (encQueue (s.queue g)), s)

/-! ### Stage table -/

/-- SET_LOAD_WINDOW (R166). -/
def State.serveLoadWindow (s : State) (f : RawWindow) : Answer × State :=
  s.checked (windowChecks f)
    (match stepOf f.firstStep, stepOf f.lastStep, gateOf f.firstGate, gateOf f.lastGate with
      | some a, some b, some c, some d =>
        (s.setStage { s.stage with
            window := { firstStep := a, lastStep := b, firstGate := c, lastGate := d,
                        advance := (advanceOf f.advance).getD .gateFirst },
            pointer := (a, c) }).taken
      | _, _, _, _ => s.refuseField 1)

/-- The cell after the pointer (R167). -/
def LoadWindow.next (w : LoadWindow) (p : StepNo × GateNo) : StepNo × GateNo :=
  match w.advance with
  | .gateFirst =>
    if p.2 ≠ w.lastGate then (p.1, p.2 + 1)
    else if p.1 ≠ w.lastStep then (p.1 + 1, w.firstGate)
    else (w.firstStep, w.firstGate)
  | .stepFirst =>
    if p.1 ≠ w.lastStep then (p.1 + 1, p.2)
    else if p.2 ≠ w.lastGate then (w.firstStep, p.2 + 1)
    else (w.firstStep, w.firstGate)

/-- A value written into the cell at the pointer, which then advances (R167). -/
def Stage.writeCell (t : Stage) (v : Option Int) : Stage :=
  let i := t.pointer.1
  let row := t.steps.get i
  { t with steps := t.steps.set i.val { row with cells := row.cells.set t.pointer.2.val v t.pointer.2.isLt } i.isLt,
           pointer := t.window.next t.pointer }

/-- WRITE_CELLS (R167). -/
def State.serveWriteCells (s : State) (values : List Nat) : Answer × State :=
  s.checked ((1, inNat 1 32 values.length) :: valueChecks 0 values)
    (let t := (values.map cellOf).foldl Stage.writeCell s.stage
     (.ok (encPointer t.pointer), s.setStage t))

/-- SET_STEP_DWELL (R168). -/
def State.serveStepDwell (s : State) (step dwell : Nat) : Answer × State :=
  s.named (stepOf step) fun i =>
    s.checked [(2, inNat 0 3600 dwell)]
      (s.setStage { s.stage with
        steps := s.stage.steps.set i.val { s.stage.steps.get i with dwell := dwell } i.isLt }).taken

/-- READ_CELLS (R168). -/
def State.serveReadCells (s : State) (step : Nat) : Answer × State :=
  s.named (stepOf step) fun i => (.ok (encCells s.stage i), s)

/-! ### Sequence runner -/

/-- DEFINE_SEQUENCE (R170). -/
def State.serveDefine (s : State) (f : RawSequence) : Answer × State :=
  s.checked (sequenceChecks f)
    (if s.runner.state ≠ .idle then s.refuse .sequenceActive
     else match stepOf f.firstStep, stepOf f.lastStep, slotOf f.windowFirst, slotOf f.windowLast with
      | some a, some b, some c, some d =>
        ({ s with definition := some { firstStep := a, lastStep := b, repetitions := f.repetitions, windowFirst := c,
                                       windowLast := d, priority := f.priority, speed := (speedOf f.speed).getD .slow,
                                       rule := (ruleOf f.rule).getD .clamp } }).taken
      | _, _, _, _ => s.refuseField 1)

/-- START_SEQUENCE (R172). -/
def State.serveStart (s : State) : Answer × State :=
  match s.definition with
  | none => s.refuse .noSequence
  | some d => if s.runner.state = .idle then (s.startSequence d).taken else s.refuse .sequenceActive

/-- STOP_SEQUENCE (R181). -/
def State.serveStop (s : State) : Answer × State :=
  match s.runner.state with
  | .idle => s.refuse .nothingToStop
  | _ => s.stopRunner.taken

end Sys2Proof.Machine
end

