-- ==== Sys2Proof/Machine/Requests.lean ====
section
/-! DEFINITION. A request from its hand-over to its reply: codes (R208), the mode test (R192), the owning block's answer,
the reply area (R199, R200), and the start of warm reset (R190). -/

namespace Sys2Proof.Machine

/-- The request code (R208). -/
def codeOf : Request → Nat
  | .status => 0x01
  | .setClock _ => 0x02
  | .run => 0x03
  | .hold => 0x04
  | .stopAll => 0x05
  | .reset => 0x06
  | .setNotices _ => 0x07
  | .configureGate _ _ _ => 0x08
  | .configureUnit _ _ => 0x09
  | .configureArbiter _ => 0x0A
  | .configureTide _ => 0x0B
  | .configureThreshold _ => 0x0C
  | .configureEnvelope _ _ => 0x0D
  | .configureQueue _ => 0x0E
  | .postOrder _ _ => 0x0F
  | .withdrawOrder _ => 0x10
  | .readSlot _ => 0x11
  | .unlock _ => 0x12
  | .listSlots => 0x13
  | .readGate _ => 0x14
  | .stopGate _ => 0x15
  | .clearTrip _ => 0x16
  | .setUnitService _ _ => 0x17
  | .readTide => 0x18
  | .pushPoints _ _ => 0x19
  | .peekPoints _ _ _ => 0x1A
  | .flushPoints _ => 0x1B
  | .readQueue _ => 0x1C
  | .setLoadWindow _ => 0x1D
  | .writeCells _ => 0x1E
  | .setStepDwell _ _ => 0x1F
  | .readCells _ => 0x20
  | .defineSequence _ => 0x21
  | .startSequence => 0x22
  | .stopSequence => 0x23

/-- The requests that are taken in CONFIG alone (R192). -/
def configOnly : Request → Bool
  | .configureGate _ _ _ => true
  | .configureUnit _ _ => true
  | .configureArbiter _ => true
  | .configureTide _ => true
  | .configureEnvelope _ _ => true
  | .configureQueue _ => true
  | _ => false

/-- The refusal of the mode test, if the request does not pass it (R192). -/
def State.modeTest (s : State) (r : Request) : Option Status :=
  if r = .status then none
  else match s.mode with
    | .resetting => some .resetting
    | .config => none
    | .run => if configOnly r then some .wrongMode else none
    | .draining => if configOnly r ∨ (r = .startSequence ∧ s.flavour = some .stop) then some .wrongMode else none

/-- A refusal by mode; RUN, HOLD and STOP_ALL carry their data all the same (R186, R205). -/
def State.modeRefusal (s : State) (r : Request) (st : Status) : Answer × State :=
  match r with
  | .run | .hold | .stopAll => State.withMode st s
  | _ => s.refuse st

/-- The owning block's answer to a request that has passed the mode test. RESET is not among them: it places its own
reply (R190). -/
def State.serve (s : State) : Request → Answer × State
  | .status => s.serveStatus
  | .setClock v => s.serveSetClock v
  | .run => s.serveRun
  | .hold => s.serveHold
  | .stopAll => s.serveStopAll
  | .reset => s.taken
  | .setNotices l => s.serveSetNotices l
  | .configureGate g p f => if p = 0 then s.serveGateAbsent g else s.serveGatePresent g p f
  | .configureUnit u t => s.serveUnit u t
  | .configureArbiter m => s.serveArbiter m
  | .configureTide f => s.serveTide f
  | .configureThreshold f => s.serveThreshold f
  | .configureEnvelope b c => s.serveEnvelope b c
  | .configureQueue f => s.serveQueue f
  | .postOrder k f => s.servePostOrder k f
  | .withdrawOrder k => s.serveWithdraw k
  | .readSlot k => s.serveReadSlot k
  | .unlock k => s.serveUnlock k
  | .listSlots => s.serveListSlots
  | .readGate g => s.serveReadGate g
  | .stopGate g => s.serveStopGate g
  | .clearTrip g => s.serveClearTrip g
  | .setUnitService u v => s.serveService u v
  | .readTide => s.serveReadTide
  | .pushPoints g l => s.servePush g l
  | .peekPoints g p n => s.servePeek g p n
  | .flushPoints g => s.serveFlush g
  | .readQueue g => s.serveReadQueue g
  | .setLoadWindow f => s.serveLoadWindow f
  | .writeCells l => s.serveWriteCells l
  | .setStepDwell i d => s.serveStepDwell i d
  | .readCells i => s.serveReadCells i
  | .defineSequence f => s.serveDefine f
  | .startSequence => s.serveStart
  | .stopSequence => s.serveStop

/-- The reply to request number `n` of kind code `kind` (R205). -/
def Answer.reply (a : Answer) (n kind : Byte) : Reply :=
  { number := n, kind := kind, status := a.status, detail := BitVec.ofNat 8 a.detail, data := a.data }

/-- The notice queue holds `l`; what is beyond the sixteenth is lost (R202). -/
def Link.queueAll (l : Link) (q : List Notice) : Link :=
  { l with notices := q.take 16, noticesLost := l.noticesLost || (16 < q.length : Bool) }

/-- The reply goes on the line before a notice of the same event that would have started there (R201; log 7). -/
def Link.replyFirst (l : Link) (r : Reply) (n : Notice) : Link :=
  ({ l with line := some (.reply r) }).queueAll (n :: l.notices)

/-- The reply of an event enters the reply area (R199 to R201). `idle` says that the line was idle before the event: if
one of the event's notices has then started on it, either of the two may have been taken first (log 7). -/
def State.reply (s : State) (idle : Bool) (r : Reply) : State :=
  match idle, s.link.line with
  | true, some (.notice n) =>
    (s.setLink (if Config.replyFirst s.freeCount then s.link.replyFirst r n else s.link.place r)).bump
  | _, _ => s.placeReply r

/-- A request that has its reply area place, up to its reply (R190, R192, R199, stage 4). -/
def State.takeKnown (s : State) (n : Byte) (r : Request) : State :=
  let kind : Byte := BitVec.ofNat 8 (codeOf r)
  match s.modeTest r with
  | some st => (s.modeRefusal r st).2.reply s.link.line.isNone ((s.modeRefusal r st).1.reply n kind)
  | none =>
    if r = .reset then s.warmReset ((Answer.ok []).reply n kind)
    else (s.serve r).2.reply s.link.line.isNone ((s.serve r).1.reply n kind)

/-- The link-error mark is set (R204). -/
def State.linkError (s : State) : State := s.setLink { s.link with linkError := true }

/-- Stage 1 of R199: with two replies waiting, a request is discarded and the link-error mark set. -/
def State.whenRoom (s : State) (f : State) : State := if 2 ≤ s.link.replies.length then s.linkError else f

/-- A request of a known kind and the required length (R199). -/
def State.takeRequest (s : State) (n : Byte) (r : Request) : State := s.whenRoom (s.takeKnown n r)

/-- A reply of the link port itself: UNKNOWN_KIND or BAD_LENGTH, echoing the kind as received (R199, R205). -/
def State.refuseFrame (s : State) (n kind : Byte) (st : Status) : State :=
  s.whenRoom (s.placeReply ((Answer.of st).reply n kind))

end Sys2Proof.Machine
end

