-- ==== Sys2Proof/Machine/Receiver.lean ====
section
/-! DEFINITION. The receive side of the control link (R195 to R199): line errors, the receive frame buffer, the CRC
check, and the reading of a request from its body (R206 to R208). -/

namespace Sys2Proof.Machine

/-! ### Reading a body (R206) -/

/-- Byte `i` of a body. -/
def byteAt (b : List Byte) (i : Nat) : Nat := (b.getD i 0).toNat

/-- The two-byte unsigned number at `i`, high byte first. -/
def wordAt (b : List Byte) (i : Nat) : Nat := byteAt b i * 256 + byteAt b (i + 1)

/-- The three-byte unsigned number at `i`. -/
def wideAt (b : List Byte) (i : Nat) : Nat := wordAt b i * 256 + byteAt b (i + 2)

/-- The millimetres at `i`: two bytes, signed. -/
def mmAt (b : List Byte) (i : Nat) : Int :=
  if wordAt b i < 32768 then (wordAt b i : Int) else (wordAt b i : Int) - 65536

/-- The clock value at `i`. -/
def clockAt (b : List Byte) (i : Nat) : Clock := BitVec.ofNat 32 (wordAt b i * 65536 + wordAt b (i + 2))

/-- `n` numbers of millimetres from `i` on. -/
def mmsAt (b : List Byte) : Nat → Nat → List Int
  | _, 0 => []
  | i, n + 1 => mmAt b i :: mmsAt b (i + 2) n

/-- `n` two-byte numbers from `i` on. -/
def wordsAt (b : List Byte) : Nat → Nat → List Nat
  | _, 0 => []
  | i, n + 1 => wordAt b i :: wordsAt b (i + 2) n

/-- `n` points from `i` on. -/
def pointsAt (b : List Byte) : Nat → Nat → List RawPoint
  | _, 0 => []
  | i, n + 1 =>
    { target := mmAt b i, stepTime := wordAt b (i + 2), tag := byteAt b (i + 4) } :: pointsAt b (i + 5) n

/-- Fields 3 to 21 of CONFIGURE_GATE (R11). -/
def rawGateAt (b : List Byte) : RawGate :=
  { openingMax := mmAt b 2, swap := byteAt b 4, lDir := byteAt b 5, lZero := wideAt b 6, lScale := wordAt b 9,
    rDir := byteAt b 11, rZero := wideAt b 12, rScale := wordAt b 15, deadband := mmAt b 17, skewTrim := mmAt b 19,
    skewTrip := mmAt b 21, approach := mmAt b 23, releaseTime := byteAt b 25, buildSteps := byteAt b 26,
    buildPressure := wordAt b 27, lockTime := byteAt b 29, quietCount := byteAt b 30, permitted := byteAt b 31,
    overrideAllowed := byteAt b 32 }

/-- The offset of the item after an optional item of `n` bytes at `i`: a presence byte of 0 means absent, any other
value present (R199). -/
def afterOpt (b : List Byte) (i n : Nat) : Nat := if byteAt b i = 0 then i + 1 else i + 1 + n

/-- The order of POST_ORDER, after the slot number (R207). -/
def rawOrderAt (b : List Byte) : RawOrder :=
  let i := afterOpt b 3 2
  let j := afterOpt b (i + 3) 2
  { kind := byteAt b 1, gate := byteAt b 2, targetPresence := byteAt b 3, target := mmAt b 4, speed := byteAt b i,
    priority := byteAt b (i + 1), rule := byteAt b (i + 2), triggerPresence := byteAt b (i + 3),
    eventKind := byteAt b (i + 4), thrIndex := byteAt b (i + 5), rep := byteAt b j, tag := wordAt b (j + 1) }

/-- The length POST_ORDER requires, from its presence bytes as sent; none where the body ends before the second
(R199). -/
def orderLength (b : List Byte) : Option Nat :=
  let i := afterOpt b 3 2
  if b.length ≤ 3 ∨ b.length ≤ i + 3 then none else some (afterOpt b (i + 3) 2 + 3)

/-- The body length a request code requires (R208); none for BAD_LENGTH whatever the length (R199). -/
def requiredLength (code : Nat) (b : List Byte) : Option Nat :=
  match code with
  | 0x02 => some 4
  | 0x07 => some 10
  | 0x08 => if b.length ≤ 1 then none else if byteAt b 1 = 0 then some 2 else some 33
  | 0x09 => some 3
  | 0x0A => some 1
  | 0x0B => some 13
  | 0x0C => some 7
  | 0x0D => some 110
  | 0x0E => some 7
  | 0x0F => orderLength b
  | 0x10 | 0x11 | 0x12 => some 1
  | 0x14 | 0x15 | 0x16 => some 1
  | 0x17 => some 2
  | 0x19 => if b.length ≤ 1 then none else some (2 + 5 * byteAt b 1)
  | 0x1A => some 3
  | 0x1B | 0x1C => some 1
  | 0x1D => some 5
  | 0x1E => if b.length = 0 then none else some (1 + 2 * byteAt b 0)
  | 0x1F => some 3
  | 0x20 => some 1
  | 0x21 => some 8
  | _ => some 0

/-- The request of a code and a body of the required length (R208). -/
def requestOf (code : Nat) (b : List Byte) : Option Request :=
  match code with
  | 0x01 => some .status
  | 0x02 => some (.setClock (clockAt b 0))
  | 0x03 => some .run
  | 0x04 => some .hold
  | 0x05 => some .stopAll
  | 0x06 => some .reset
  | 0x07 => some (.setNotices (b.map BitVec.toNat))
  | 0x08 => some (.configureGate (byteAt b 0) (byteAt b 1) (rawGateAt b))
  | 0x09 => some (.configureUnit (byteAt b 0) (wordAt b 1))
  | 0x0A => some (.configureArbiter (byteAt b 0))
  | 0x0B => some (.configureTide
      { upLow := mmAt b 0, upHigh := mmAt b 2, downLow := mmAt b 4, downHigh := mmAt b 6, turnBand := mmAt b 8,
        turnConfirm := byteAt b 10, surgeRate := mmAt b 11 })
  | 0x0C => some (.configureThreshold
      { index := byteAt b 0, signal := byteAt b 1, level := mmAt b 2, hysteresis := mmAt b 4, enabled := byteAt b 6 })
  | 0x0D => some (.configureEnvelope (mmsAt b 0 7) (mmsAt b 14 48))
  | 0x0E => some (.configureQueue
      { gate := byteAt b 0, base := byteAt b 1, size := byteAt b 2, limit := byteAt b 3, limitDir := byteAt b 4,
        holdTime := wordAt b 5 })
  | 0x0F => some (.postOrder (byteAt b 0) (rawOrderAt b))
  | 0x10 => some (.withdrawOrder (byteAt b 0))
  | 0x11 => some (.readSlot (byteAt b 0))
  | 0x12 => some (.unlock (byteAt b 0))
  | 0x13 => some .listSlots
  | 0x14 => some (.readGate (byteAt b 0))
  | 0x15 => some (.stopGate (byteAt b 0))
  | 0x16 => some (.clearTrip (byteAt b 0))
  | 0x17 => some (.setUnitService (byteAt b 0) (byteAt b 1))
  | 0x18 => some .readTide
  | 0x19 => some (.pushPoints (byteAt b 0) (pointsAt b 2 (byteAt b 1)))
  | 0x1A => some (.peekPoints (byteAt b 0) (byteAt b 1) (byteAt b 2))
  | 0x1B => some (.flushPoints (byteAt b 0))
  | 0x1C => some (.readQueue (byteAt b 0))
  | 0x1D => some (.setLoadWindow
      { firstStep := byteAt b 0, lastStep := byteAt b 1, firstGate := byteAt b 2, lastGate := byteAt b 3,
        advance := byteAt b 4 })
  | 0x1E => some (.writeCells (wordsAt b 1 (byteAt b 0)))
  | 0x1F => some (.setStepDwell (byteAt b 0) (wordAt b 1))
  | 0x20 => some (.readCells (byteAt b 0))
  | 0x21 => some (.defineSequence
      { firstStep := byteAt b 0, lastStep := byteAt b 1, repetitions := byteAt b 2, windowFirst := byteAt b 3,
        windowLast := byteAt b 4, priority := byteAt b 5, speed := byteAt b 6, rule := byteAt b 7 })
  | 0x22 => some .startSequence
  | 0x23 => some .stopSequence
  | _ => none

/-! ### The receiver (R197) -/

/-- A well-formed frame is taken as a request: reply area, kind, length, owning block (R199). -/
def State.takeFrame (s : State) (kind n : Byte) (body : List Byte) : State :=
  match requestOf kind.toNat body with
  | none => s.refuseFrame n kind .unknownKind
  | some r =>
    if requiredLength kind.toNat body = some body.length then s.takeRequest n r
    else s.refuseFrame n kind .badLength

/-- The receiver returns to WAITING with an empty buffer and no gap timer (R197). -/
def Link.waiting (l : Link) : Link := { l with rx := .waiting, buffer := [], gap := none }

/-- An open frame is abandoned and the link-error mark set (R195, R197, R204). -/
def Link.abandon (l : Link) : Link := { l.waiting with linkError := true }

/-- The bytes a frame holds after its start byte when it is complete: length, kind, number, body, CRC (R196). -/
def frameSize (buffer : List Byte) : Nat := byteAt buffer 0 + 5

/-- A complete frame is checked against its CRC and taken (R197, R199). -/
def State.completeFrame (s : State) (buffer : List Byte) : State :=
  let covered := buffer.take (byteAt buffer 0 + 3)
  if encWord (crc16 covered) = buffer.drop (byteAt buffer 0 + 3) then
    (s.setLink s.link.waiting).takeFrame (buffer.getD 1 0) (buffer.getD 2 0) (covered.drop 3)
  else s.setLink s.link.abandon

/-- A byte of an open frame: stored, or the length that abandons it, or the byte that completes it (R197). -/
def State.openByte (s : State) (b : Byte) : State :=
  let buffer := s.link.buffer ++ [b]
  if s.link.buffer = [] ∧ 250 < b.toNat then s.setLink s.link.abandon
  else if buffer.length = frameSize buffer then s.completeFrame buffer
  else s.setLink { s.link with buffer := buffer, gap := some Config.gapTime }

/-- A byte arrives from the host; `stopHigh` is the level of its stop bit (R195, R197). -/
def State.receive (s : State) (b : Byte) (stopHigh : Bool) : State :=
  if stopHigh = false then
    match s.link.rx with
    | .opened => s.setLink s.link.abandon
    | .waiting => s.linkError
  else
    match s.link.rx with
    | .waiting =>
      if b = 0xA7#8 then s.setLink { s.link with rx := .opened, buffer := [], gap := some Config.gapTime } else s
    | .opened => s.openByte b

/-- The gap timer expires (R197). -/
def State.gapExpired (s : State) : State :=
  match s.link.rx, s.link.gap with
  | .opened, some _ => s.setLink s.link.abandon
  | _, _ => s

/-- A frame has finished on the line: the transmit arbiter decides (R201). -/
def State.frameFinished (s : State) : State :=
  match s.link.line with
  | some _ => s.setLink s.link.decide
  | none => s

end Sys2Proof.Machine
end

