-- ==== Sys2Proof/Machine/Event.lean ====
section
/-! DEFINITION. The shape every meaning has: what an event does while the reset line is held (R185), and how it ends
(R78, R189). -/

namespace Sys2Proof.Machine

/-- The outcome of a command. Every command of the TQ-6 answers a next state. -/
abbrev Result := Host.Outcome State Fault Refusal

/-- An event that changes nothing but what `f` says; ignored while the reset line is held (R185). -/
def simple (s : State) (f : State → State) : Result := .next (if s.resetHeld then s else f s)

/-- An event of a block, ended by the report of no RUNNING slot and the grant round; ignored while the reset line is held
(R78, R185, R189). -/
def event (s : State) (f : State → State) : Result := .next (if s.resetHeld then s else (f s).finish)

/-- A request whose frame completes now (R199); ignored while the reset line is held (R185). -/
def request (s : State) (n : Byte) (r : Request) : Result := .next (if s.resetHeld then s else s.takeRequest n r)

/-! ### Resets -/

/-- The outputs of a gate while the reset line is held (R185). -/
def GateRec.held (r : GateRec) : GateRec := r.modEnds fun e => { e with valve := .closed, pinCmd := .engage }

/-- The outputs of a unit while the reset line is held (R185). -/
def PowerUnit.held (r : PowerUnit) : PowerUnit := { r with pump := false, manifold := none }

/-- The reset line is asserted: every output at its cold-reset value, the transmit wire idle, every input ignored from
now on (R185, R195). -/
def State.assertReset (s : State) : State :=
  { s with resetHeld := true, gates := Vector.ofFn fun g => (s.gate g).held,
           units := Vector.ofFn fun u => (s.unit u).held,
           link := { s.link with line := none } }

/-- The moment of cold reset: every block at its cold-reset values, the strap sampled, then the MODE notice (R185, R195).
What the device does not hold stays: the levels on its input pins, the queue of commands and the count of free choices
(log 19). -/
def State.coldReset (s : State) (strap : LinkRate) : State :=
  ({ State.coldValues strap s.inputs with freeCount := s.freeCount, pending := s.pending }).notify
    (.mode .config none none .coldReset 0)

/-! ### Field inputs (levels that the pins follow even while the reset line is held; logs 4 and 20) -/

/-- A new level of a lock-pin input (R2). An unchanged level is no change. -/
def State.pinEvent (s : State) (g : GateNo) (ch : Channel) (pos : PinPos) : State :=
  if (s.pinInput g).level ch = pos then s
  else
    let s' := s.setPinInput g ((s.pinInput g).put ch pos)
    if s'.resetHeld then s' else (s'.pinChanged g ((s'.gate g).params.swap.endOf ch)).finish

/-- A new level of a unit's ready input (R94, R98). -/
def State.readyEvent (s : State) (u : UnitNo) (ready : Bool) : State :=
  if (s.unitInput u).ready = ready then s
  else
    let s' := s.setUnitInput u { s.unitInput u with ready := ready }
    if s'.resetHeld then s'
    else if ready = true ∧ (s'.unit u).state = .starting then (s'.unitReady u).finish
    else s'

/-- Assertion of a unit's fault input (R94, R104). -/
def State.faultEvent (s : State) (u : UnitNo) : State :=
  if (s.unitInput u).fault then s
  else
    let s' := s.setUnitInput u { s.unitInput u with fault := true }
    if s'.resetHeld then s' else (s'.faultAsserted u).finish

/-- Clearing of a unit's fault input (R94). -/
def State.faultClear (s : State) (u : UnitNo) : State := s.setUnitInput u { s.unitInput u with fault := false }

/-- A LINING_UP unit takes a change to LINED (R100). -/
def State.lineUpDone (s : State) (u : UnitNo) : State :=
  match (s.unit u).state, (s.unit u).slot, (s.unit u).gate with
  | .liningUp, some k, some g => s.linedUp u k g
  | _, _, _ => s

/-- A new level of a unit's lined-up input (R94, R100). -/
def State.linedEvent (s : State) (u : UnitNo) (lined : Bool) : State :=
  if (s.unitInput u).lined = lined then s
  else
    let s' := s.setUnitInput u { s.unitInput u with lined := lined }
    if s'.resetHeld then s'
    else if lined = true ∧ (s'.unit u).state = .liningUp then (s'.lineUpDone u).finish
    else s'

/-! ### Timer expiries of units and the runner -/

/-- The start timer expires in STARTING (R99). -/
def State.startExpired (s : State) (u : UnitNo) : State :=
  if (s.unit u).state = .starting ∧ (s.unit u).runs .start = true then s.startFailed u else s

/-- The line-up timer expires in LINING_UP (R101). -/
def State.lineUpExpired (s : State) (u : UnitNo) : State :=
  if (s.unit u).state = .liningUp ∧ (s.unit u).runs .lineUp = true then s.lineUpFailed u else s

/-- The idle timer expires in IDLE (R103). -/
def State.idleExpired (s : State) (u : UnitNo) : State :=
  if (s.unit u).state = .idle ∧ (s.unit u).runs .idle = true then s.idleStopped u else s

/-- The dwell timer expires in DWELL (R178). -/
def State.dwellEvent (s : State) : State :=
  if s.runner.state = .dwell ∧ s.runner.dwell.isSome = true then s.dwellExpired else s

end Sys2Proof.Machine
end

