-- ==== Sys2Proof/Machine/ConfigureRequests.lean ====
section
/-! DEFINITION. The meanings of the configuration requests. -/

namespace Sys2Proof.Machine

/-- CONFIGURE_GATE with PRESENT (R11, R13). -/
def execConfigureGatePresent (n : Byte) (gate : Nat) (p : RawGate) (s : State) : Result :=
  request s n (.configureGate gate 1 p)

/-- The fields that CONFIGURE_GATE with ABSENT does not carry; nothing reads them (R11). -/
def noGateFields : RawGate :=
  { openingMax := 0, swap := 0, lDir := 0, lZero := 0, lScale := 0, rDir := 0, rZero := 0, rScale := 0, deadband := 0,
    skewTrim := 0, skewTrip := 0, approach := 0, releaseTime := 0, buildSteps := 0, buildPressure := 0, lockTime := 0,
    quietCount := 0, permitted := 0, overrideAllowed := 0 }

/-- CONFIGURE_GATE with ABSENT (R11, R12). -/
def execConfigureGateAbsent (n : Byte) (gate : Nat) (s : State) : Result :=
  request s n (.configureGate gate 0 noGateFields)

/-- CONFIGURE_UNIT (R108). -/
def execConfigureUnit (n : Byte) (unit idleTime : Nat) (s : State) : Result :=
  request s n (.configureUnit unit idleTime)

/-- CONFIGURE_ARBITER (R91). -/
def execConfigureArbiter (n : Byte) (mode : Nat) (s : State) : Result := request s n (.configureArbiter mode)

/-- CONFIGURE_TIDE (R127). -/
def execConfigureTide (n : Byte) (f : RawTide) (s : State) : Result := request s n (.configureTide f)

/-- CONFIGURE_THRESHOLD (R119). -/
def execConfigureThreshold (n : Byte) (f : RawThreshold) (s : State) : Result := request s n (.configureThreshold f)

/-- CONFIGURE_ENVELOPE (R141). -/
def execConfigureEnvelope (n : Byte) (boundaries cells : List Int) (s : State) : Result :=
  request s n (.configureEnvelope boundaries cells)

/-- CONFIGURE_QUEUE (R144). -/
def execConfigureQueue (n : Byte) (f : RawQueue) (s : State) : Result := request s n (.configureQueue f)

end Sys2Proof.Machine
end

