-- ==== Sys2Proof/Machine/GateFamily.lean ====
section
/-! DEFINITION. The meanings of the field events and timers of a gate. -/

namespace Sys2Proof.Machine

/-- ENCODER_SAMPLE (R2 to R10, R19, R25, R29). -/
def execEncoderSample (gate : GateNo) (ch : Channel) (count pressure elapsed : Nat) (s : State) : Result :=
  event s fun s => s.encoderSample gate ch count pressure elapsed

/-- ENCODER_SILENCE_EXPIRY (R6, R8). -/
def execEncoderSilenceExpiry (gate : GateNo) (e : HoistEnd) (s : State) : Result :=
  event s fun s => s.encoderSilence gate e

/-- LOCK_PIN_FEEDBACK (R2, R18, R20, R31, R35). -/
def execLockPinFeedback (gate : GateNo) (ch : Channel) (pos : PinPos) (s : State) : Result :=
  .next (s.pinEvent gate ch pos)

/-- RELEASE_TIMER_EXPIRY (R18). -/
def execReleaseTimerExpiry (gate : GateNo) (s : State) : Result := event s fun s => s.releaseExpired gate

/-- BUILD_TIMER_EXPIRY (R19). -/
def execBuildTimerExpiry (gate : GateNo) (s : State) : Result := event s fun s => s.buildExpired gate

/-- STALL_TIMER_EXPIRY (R27). -/
def execStallTimerExpiry (gate : GateNo) (e : HoistEnd) (s : State) : Result := event s fun s => s.stallExpired gate e

/-- SETTLE_TIMER_EXPIRY (R30). -/
def execSettleTimerExpiry (gate : GateNo) (s : State) : Result := event s fun s => s.settleExpired gate

/-- LOCK_TIMER_EXPIRY (R32). -/
def execLockTimerExpiry (gate : GateNo) (s : State) : Result := event s fun s => s.lockExpired gate

/-- TRIP_LOCK_TIMER_EXPIRY (R35). -/
def execTripLockTimerExpiry (gate : GateNo) (s : State) : Result := event s fun s => s.tripLockExpired gate

/-- HOLD_TIMER_EXPIRY (R160). -/
def execHoldTimerExpiry (gate : GateNo) (s : State) : Result := event s fun s => s.holdExpired gate

end Sys2Proof.Machine
end

