-- ==== Sys2Proof/Machine/LinkFamily.lean ====
section
/-! DEFINITION. The meanings of the link port's own events (R195, R197, R201). -/

namespace Sys2Proof.Machine

/-- RECEIVED_BYTE (R195, R197, R199). -/
def execReceivedByte (b : Byte) (stopHigh : Bool) (s : State) : Result := simple s fun s => s.receive b stopHigh

/-- GAP_TIMER_EXPIRY (R197). -/
def execGapTimerExpiry (s : State) : Result := simple s State.gapExpired

/-- FRAME_FINISHED (R201). -/
def execFrameFinished (s : State) : Result := simple s State.frameFinished

end Sys2Proof.Machine
end

