-- ==== Sys2Proof/Machine/ModeRequests.lean ====
section
/-! DEFINITION. The meanings of the requests of mode control and of SET_NOTICES. -/

namespace Sys2Proof.Machine

/-- STATUS (R194). -/
def execStatus (n : Byte) (s : State) : Result := request s n .status

/-- SET_CLOCK (R193). -/
def execSetClock (n : Byte) (value : Clock) (s : State) : Result := request s n (.setClock value)

/-- RUN (R186). -/
def execRun (n : Byte) (s : State) : Result := request s n .run

/-- HOLD (R187). -/
def execHold (n : Byte) (s : State) : Result := request s n .hold

/-- STOP_ALL (R188). -/
def execStopAll (n : Byte) (s : State) : Result := request s n .stopAll

/-- RESET (R190). -/
def execReset (n : Byte) (s : State) : Result := request s n .reset

/-- SET_NOTICES (R203). -/
def execSetNotices (n : Byte) (flags : List Nat) (s : State) : Result := request s n (.setNotices flags)

end Sys2Proof.Machine
end

