-- ==== Sys2Proof/Machine/OrderRequests.lean ====
section
/-! DEFINITION. The meanings of the requests of the order table, the gates, the units and READ_TIDE. -/

namespace Sys2Proof.Machine

/-- POST_ORDER (R49, R50). -/
def execPostOrder (n : Byte) (slot : Nat) (f : RawOrder) (s : State) : Result := request s n (.postOrder slot f)

/-- WITHDRAW_ORDER (R51). -/
def execWithdrawOrder (n : Byte) (slot : Nat) (s : State) : Result := request s n (.withdrawOrder slot)

/-- READ_SLOT (R63, R64). -/
def execReadSlot (n : Byte) (slot : Nat) (s : State) : Result := request s n (.readSlot slot)

/-- UNLOCK (R65). -/
def execUnlock (n : Byte) (slot : Nat) (s : State) : Result := request s n (.unlock slot)

/-- LIST_SLOTS (R67). -/
def execListSlots (n : Byte) (s : State) : Result := request s n .listSlots

/-- READ_GATE (R15). -/
def execReadGate (n : Byte) (gate : Nat) (s : State) : Result := request s n (.readGate gate)

/-- STOP_GATE (R41). -/
def execStopGate (n : Byte) (gate : Nat) (s : State) : Result := request s n (.stopGate gate)

/-- CLEAR_TRIP (R37). -/
def execClearTrip (n : Byte) (gate : Nat) (s : State) : Result := request s n (.clearTrip gate)

/-- SET_UNIT_SERVICE with OUT (R106). -/
def execSetUnitServiceOut (n : Byte) (unit : Nat) (s : State) : Result := request s n (.setUnitService unit 0)

/-- SET_UNIT_SERVICE with IN (R107). -/
def execSetUnitServiceIn (n : Byte) (unit : Nat) (s : State) : Result := request s n (.setUnitService unit 1)

/-- READ_TIDE (R128). -/
def execReadTide (n : Byte) (s : State) : Result := request s n .readTide

end Sys2Proof.Machine
end

