-- ==== Sys2Proof/Machine/PoolRequests.lean ====
section
/-! DEFINITION. The meanings of the requests of the profile pool, the stage table and the sequence runner. -/

namespace Sys2Proof.Machine

/-- PUSH_POINTS (R146 to R148). -/
def execPushPoints (n : Byte) (gate : Nat) (points : List RawPoint) (s : State) : Result :=
  request s n (.pushPoints gate points)

/-- PEEK_POINTS (R150). -/
def execPeekPoints (n : Byte) (gate position count : Nat) (s : State) : Result :=
  request s n (.peekPoints gate position count)

/-- FLUSH_POINTS (R151). -/
def execFlushPoints (n : Byte) (gate : Nat) (s : State) : Result := request s n (.flushPoints gate)

/-- READ_QUEUE (R152). -/
def execReadQueue (n : Byte) (gate : Nat) (s : State) : Result := request s n (.readQueue gate)

/-- SET_LOAD_WINDOW (R166). -/
def execSetLoadWindow (n : Byte) (f : RawWindow) (s : State) : Result := request s n (.setLoadWindow f)

/-- WRITE_CELLS (R167). -/
def execWriteCells (n : Byte) (values : List Nat) (s : State) : Result := request s n (.writeCells values)

/-- SET_STEP_DWELL (R168). -/
def execSetStepDwell (n : Byte) (step dwell : Nat) (s : State) : Result := request s n (.setStepDwell step dwell)

/-- READ_CELLS (R168). -/
def execReadCells (n : Byte) (step : Nat) (s : State) : Result := request s n (.readCells step)

/-- DEFINE_SEQUENCE (R170). -/
def execDefineSequence (n : Byte) (f : RawSequence) (s : State) : Result := request s n (.defineSequence f)

/-- START_SEQUENCE (R172). -/
def execStartSequence (n : Byte) (s : State) : Result := request s n .startSequence

/-- STOP_SEQUENCE (R181). -/
def execStopSequence (n : Byte) (s : State) : Result := request s n .stopSequence

end Sys2Proof.Machine
end

