-- ==== Sys2Proof/Machine/ResetFamily.lean ====
section
/-! DEFINITION. The meanings of the reset line, cold reset and the weir-clock tick (R185, R193). -/

namespace Sys2Proof.Machine

/-- RESET_LINE_ASSERTED (R185). -/
def execResetLineAsserted (s : State) : Result := .next s.assertReset

/-- COLD_RESET: the release of the reset line, or the end of power-on (R185). -/
def execColdReset (strap : LinkRate) (s : State) : Result := .next (s.coldReset strap)

/-- WEIR_CLOCK_TICK: the clock advances by 1 and wraps (R193). -/
def execWeirClockTick (s : State) : Result := simple s fun s => { s with clock := s.clock + 1 }

end Sys2Proof.Machine
end

