-- ==== Sys2Proof/Machine/TideFamily.lean ====
section
/-! DEFINITION. The meanings of the gauge events and of the sequence runner's own events. -/

namespace Sys2Proof.Machine

/-- GAUGE_SAMPLE (R111, R112, R114). -/
def execGaugeSample (gauge : Gauge) (level : Int) (s : State) : Result := event s fun s => s.gaugeSample gauge level

/-- GAUGE_SILENCE_EXPIRY (R113, R114). -/
def execGaugeSilenceExpiry (gauge : Gauge) (s : State) : Result := event s fun s => s.gaugeSilence gauge

/-- POSTING_ATTEMPT (R173). -/
def execPostingAttempt (s : State) : Result := event s State.dueAttempt

/-- RUNNER_COLLECTION (R71, R176). -/
def execRunnerCollection (slot : SlotNo) (s : State) : Result := event s fun s => s.collect slot

/-- DWELL_TIMER_EXPIRY (R178). -/
def execDwellTimerExpiry (s : State) : Result := event s State.dwellEvent

end Sys2Proof.Machine
end

