-- ==== Sys2Proof/Machine/UnitFamily.lean ====
section
/-! DEFINITION. The meanings of the field events and timers of a power unit. -/

namespace Sys2Proof.Machine

/-- READY_CHANGE (R94, R98). -/
def execReadyChange (unit : UnitNo) (ready : Bool) (s : State) : Result := .next (s.readyEvent unit ready)

/-- FAULT_ASSERTION (R94, R104). -/
def execFaultAssertion (unit : UnitNo) (s : State) : Result := .next (s.faultEvent unit)

/-- FAULT_CLEARING (R94). -/
def execFaultClearing (unit : UnitNo) (s : State) : Result := .next (s.faultClear unit)

/-- LINED_UP_CHANGE (R94, R100). -/
def execLinedUpChange (unit : UnitNo) (lined : Bool) (s : State) : Result := .next (s.linedEvent unit lined)

/-- START_TIMER_EXPIRY (R99). -/
def execStartTimerExpiry (unit : UnitNo) (s : State) : Result := event s fun s => s.startExpired unit

/-- LINE_UP_TIMER_EXPIRY (R101). -/
def execLineUpTimerExpiry (unit : UnitNo) (s : State) : Result := event s fun s => s.lineUpExpired unit

/-- IDLE_TIMER_EXPIRY (R103). -/
def execIdleTimerExpiry (unit : UnitNo) (s : State) : Result := event s fun s => s.idleExpired unit

end Sys2Proof.Machine
end

