-- ==== Sys2Proof/Machine/Dispatch.lean ====
section
/-! DEFINITION. One arm per command: the meaning of each. -/

namespace Sys2Proof.Machine

/-- The effect of a command on everything but the queue. -/
def exec (i : Instr) (s : State) : Host.Outcome State Fault Refusal :=
  match i with
  | .resetLineAsserted => Sys2Proof.Machine.execResetLineAsserted s
  | .coldReset strap => Sys2Proof.Machine.execColdReset strap s
  | .weirClockTick => Sys2Proof.Machine.execWeirClockTick s
  | .receivedByte b stopHigh => Sys2Proof.Machine.execReceivedByte b stopHigh s
  | .gapTimerExpiry => Sys2Proof.Machine.execGapTimerExpiry s
  | .frameFinished => Sys2Proof.Machine.execFrameFinished s
  | .status n => Sys2Proof.Machine.execStatus n s
  | .setClock n value => Sys2Proof.Machine.execSetClock n value s
  | .run n => Sys2Proof.Machine.execRun n s
  | .hold n => Sys2Proof.Machine.execHold n s
  | .stopAll n => Sys2Proof.Machine.execStopAll n s
  | .reset n => Sys2Proof.Machine.execReset n s
  | .setNotices n flags => Sys2Proof.Machine.execSetNotices n flags s
  | .configureGatePresent n gate p => Sys2Proof.Machine.execConfigureGatePresent n gate p s
  | .configureGateAbsent n gate => Sys2Proof.Machine.execConfigureGateAbsent n gate s
  | .configureUnit n unit idleTime => Sys2Proof.Machine.execConfigureUnit n unit idleTime s
  | .configureArbiter n mode => Sys2Proof.Machine.execConfigureArbiter n mode s
  | .configureTide n f => Sys2Proof.Machine.execConfigureTide n f s
  | .configureThreshold n f => Sys2Proof.Machine.execConfigureThreshold n f s
  | .configureEnvelope n boundaries cells => Sys2Proof.Machine.execConfigureEnvelope n boundaries cells s
  | .configureQueue n f => Sys2Proof.Machine.execConfigureQueue n f s
  | .postOrder n slot f => Sys2Proof.Machine.execPostOrder n slot f s
  | .withdrawOrder n slot => Sys2Proof.Machine.execWithdrawOrder n slot s
  | .readSlot n slot => Sys2Proof.Machine.execReadSlot n slot s
  | .unlock n slot => Sys2Proof.Machine.execUnlock n slot s
  | .listSlots n => Sys2Proof.Machine.execListSlots n s
  | .readGate n gate => Sys2Proof.Machine.execReadGate n gate s
  | .stopGate n gate => Sys2Proof.Machine.execStopGate n gate s
  | .clearTrip n gate => Sys2Proof.Machine.execClearTrip n gate s
  | .setUnitServiceOut n unit => Sys2Proof.Machine.execSetUnitServiceOut n unit s
  | .setUnitServiceIn n unit => Sys2Proof.Machine.execSetUnitServiceIn n unit s
  | .readTide n => Sys2Proof.Machine.execReadTide n s
  | .pushPoints n gate points => Sys2Proof.Machine.execPushPoints n gate points s
  | .peekPoints n gate position count => Sys2Proof.Machine.execPeekPoints n gate position count s
  | .flushPoints n gate => Sys2Proof.Machine.execFlushPoints n gate s
  | .readQueue n gate => Sys2Proof.Machine.execReadQueue n gate s
  | .setLoadWindow n f => Sys2Proof.Machine.execSetLoadWindow n f s
  | .writeCells n values => Sys2Proof.Machine.execWriteCells n values s
  | .setStepDwell n step dwell => Sys2Proof.Machine.execSetStepDwell n step dwell s
  | .readCells n step => Sys2Proof.Machine.execReadCells n step s
  | .defineSequence n f => Sys2Proof.Machine.execDefineSequence n f s
  | .startSequence n => Sys2Proof.Machine.execStartSequence n s
  | .stopSequence n => Sys2Proof.Machine.execStopSequence n s
  | .encoderSample gate ch count pressure elapsed => Sys2Proof.Machine.execEncoderSample gate ch count pressure elapsed s
  | .encoderSilenceExpiry gate e => Sys2Proof.Machine.execEncoderSilenceExpiry gate e s
  | .lockPinFeedback gate ch pos => Sys2Proof.Machine.execLockPinFeedback gate ch pos s
  | .releaseTimerExpiry gate => Sys2Proof.Machine.execReleaseTimerExpiry gate s
  | .buildTimerExpiry gate => Sys2Proof.Machine.execBuildTimerExpiry gate s
  | .stallTimerExpiry gate e => Sys2Proof.Machine.execStallTimerExpiry gate e s
  | .settleTimerExpiry gate => Sys2Proof.Machine.execSettleTimerExpiry gate s
  | .lockTimerExpiry gate => Sys2Proof.Machine.execLockTimerExpiry gate s
  | .tripLockTimerExpiry gate => Sys2Proof.Machine.execTripLockTimerExpiry gate s
  | .holdTimerExpiry gate => Sys2Proof.Machine.execHoldTimerExpiry gate s
  | .readyChange unit ready => Sys2Proof.Machine.execReadyChange unit ready s
  | .faultAssertion unit => Sys2Proof.Machine.execFaultAssertion unit s
  | .faultClearing unit => Sys2Proof.Machine.execFaultClearing unit s
  | .linedUpChange unit lined => Sys2Proof.Machine.execLinedUpChange unit lined s
  | .startTimerExpiry unit => Sys2Proof.Machine.execStartTimerExpiry unit s
  | .lineUpTimerExpiry unit => Sys2Proof.Machine.execLineUpTimerExpiry unit s
  | .idleTimerExpiry unit => Sys2Proof.Machine.execIdleTimerExpiry unit s
  | .gaugeSample gauge level => Sys2Proof.Machine.execGaugeSample gauge level s
  | .gaugeSilenceExpiry gauge => Sys2Proof.Machine.execGaugeSilenceExpiry gauge s
  | .postingAttempt => Sys2Proof.Machine.execPostingAttempt s
  | .runnerCollection slot => Sys2Proof.Machine.execRunnerCollection slot s
  | .dwellTimerExpiry => Sys2Proof.Machine.execDwellTimerExpiry s

end Sys2Proof.Machine
end

