-- ==== Sys2Proof/Safety.lean ====
section
/-! DEFINITION. What counts as a safe state of the TQ-6, in the terms claims use: the laws that the spec says a block
owns. Each is a statement about State alone. -/

namespace Sys2Proof.Safety

open Sys2Proof.Machine

/-- R202: the notice queue holds at most 16 notices and the reply area at most 2 replies. -/
def LinkBounded (s : State) : Prop := s.link.notices.length ≤ 16 ∧ s.link.replies.length ≤ 2

/-- R64: a locked slot is ARMED or DONE. That at most one slot is locked holds by the form of State: one lock holder. -/
def LockLawful (s : State) : Prop :=
  ∀ k : SlotNo, s.locked k = true → (s.slot k).state = .armed ∨ (s.slot k).state = .done

/-- R48: a FREE slot holds no order and no report, and its owner is HOST. -/
def FreeEmpty (s : State) : Prop :=
  ∀ k : SlotNo, (s.slot k).state = .free → s.slot k = Slot.empty

/-- R95: at most one power unit is STARTING. -/
def OneStarting (s : State) : Prop :=
  ∀ u v : UnitNo, (s.unit u).state = .starting → (s.unit v).state = .starting → u = v

/-- R93: the outputs of a unit are those of its state, while the reset line is not held. -/
def PowerUnit.outputsLawful (r : PowerUnit) : Bool :=
  match r.state with
  | .off | .startQueued | .outOfService => !r.pump && r.manifold == none
  | .starting | .idle => r.pump && r.manifold == none
  | .liningUp | .assigned => r.pump && r.manifold.isSome && r.manifold == r.gate

/-- R93: the outputs of every unit are those of its state. -/
def UnitsLawful (s : State) : Prop := s.resetHeld = false → ∀ u : UnitNo, PowerUnit.outputsLawful (s.unit u) = true

/-- R143: every queue lies within the pool and holds at most its size. -/
def QueuesFit (s : State) : Prop :=
  ∀ g : GateNo, (s.queue g).level ≤ (s.queue g).size ∧ (s.queue g).base + (s.queue g).size ≤ 256

/-- R143: no two partitions share a cell. -/
def PartitionsApart (s : State) : Prop :=
  ∀ g h : GateNo, g ≠ h → (s.queue h).size ≠ 0 →
    (s.queue g).overlaps (s.queue h).base (s.queue h).size = false

/-- R123: the sea-side history holds at most 61 entries. -/
def HistoryBounded (s : State) : Prop := s.tide.history.length ≤ 61

/-- R184: the drain flavour is present while the mode is DRAINING and absent in every other mode. -/
def FlavourLawful (s : State) : Prop := s.flavour.isSome = (s.mode == .draining)

/-! ### Laws over slots, units and gates -/

/-- R95: the start queue holds units that are START_QUEUED, each once; it is empty unless a unit is STARTING; at most one
unit is STARTING. With three units it therefore holds at most two. -/
def StarterLawful (s : State) : Prop :=
  OneStarting s ∧ s.startQueue.Nodup ∧ (∀ u : UnitNo, u ∈ s.startQueue ↔ (s.unit u).state = .startQueued) ∧
    (s.startQueue ≠ [] → ∃ u : UnitNo, (s.unit u).state = .starting)

/-- The outputs of chapter 2's table for a gate record: valves and lock-pin commands by state. -/
def gateOutputs (r : GateRec) : Prop :=
  match r.state with
  | .absent | .parked | .locking | .tripped =>
    ∀ e : HoistEnd, (r.hoist e).valve = .closed ∧ (r.hoist e).pinCmd = .engage
  | .releasing | .held | .settling => ∀ e : HoistEnd, (r.hoist e).valve = .closed ∧ (r.hoist e).pinCmd = .withdraw
  | .building => ∀ e : HoistEnd, (r.hoist e).valve = .build ∧ (r.hoist e).pinCmd = .withdraw
  | .travel => ∀ e : HoistEnd, (r.hoist e).valve ≠ .build ∧ (r.hoist e).pinCmd = .withdraw

/-- R2, R16: every gate drives the outputs of its state, while the reset line is not held. -/
def GatesDriveTheirState (s : State) : Prop := s.resetHeld = false → ∀ g : GateNo, gateOutputs (s.gate g)

/-- R16: the items of a move are absent or clear in PARKED and TRIPPED and while the gate is ABSENT. -/
def RestingGatesClear (s : State) : Prop :=
  ∀ g : GateNo, (s.gate g).state.moving = false → (s.gate g).move = Move.empty

/-- Between events no report and no grant round is due (log 17). -/
def MarksClear (s : State) : Prop := s.marks = ⟨false, false⟩

/-! ### Terms the statements use -/

/-- The device takes a request: the reset line is released and the reply area has a place (R185, R199). -/
def Listening (s : State) : Prop := s.resetHeld = false ∧ s.link.replies.length < 2

/-- A reply with status OK (R205). -/
def okReply (n kind : Byte) (data : List Byte) : Reply :=
  { number := n, kind := kind, status := .ok, detail := 0, data := data }

/-- The bytes of a frame received one after another, each with its stop bit high (R195, R197). -/
def receiveAll (bytes : List Byte) (s : State) : State := bytes.foldl (fun s b => s.receive b true) s

/-- R31: entering LOCKING from outside its own state closes both valves, sets both pins to ENGAGE, starts the lock timer,
cancels every other timer of the move, clears the trim end and keeps the rest of the record. -/
def EntersLocking (r r' : GateRec) : Prop :=
  r'.state = .locking ∧ r'.phase = some (.lock, r.params.lockTime * 100) ∧ r'.params = r.params ∧ r'.trip = r.trip ∧
    r'.levelRequired = r.levelRequired ∧
    (∀ e : HoistEnd, r'.hoist e = { r.hoist e with valve := .closed, pinCmd := .engage, stall := none }) ∧
    r'.move = { r.move with outcome := r'.move.outcome, trimEnd := none, hold := none }

/-- The record after a sample of opening `x` that is accepted at end `e`: its opening held, its pressure and reference
stored, the silence timer restarted (R6, R7). -/
def accepts (r : GateRec) (e : HoistEnd) (x : Int) (pressure : Nat) : GateRec :=
  r.modEnd e fun h =>
    { h with silence := some 250, pressure := some pressure, reference := some x, held := some x }

/-- The sample of opening `x` passes both tests of a GOOD end (R7). -/
def passesTests (h : EndRec) (x : Int) (elapsed : Nat) : Prop :=
  h.status = .good ∧ h.silence.isSome = true ∧ elapsed ≤ 250 ∧ ∃ y, h.held = some y ∧ mag (x - y) ≤ 50

/-- A sample of a FAULTED end is consistent with the one before it (R9). -/
def consistentWithLast (h : EndRec) (x : Int) (elapsed : Nat) : Prop :=
  h.silence.isSome = true ∧ elapsed ≤ 250 ∧ ∃ y, h.reference = some y ∧ mag (x - y) ≤ 50

/-- R158: entering HELD closes both valves, clears the trim end, stops the phase timer and starts the hold timer. -/
def heldRecord (r : GateRec) (holdTime : Nat) : GateRec :=
  { r with state := .held, phase := none, endL := { r.endL with valve := .closed, stall := none },
           endR := { r.endR with valve := .closed, stall := none },
           move := { r.move with trimEnd := none, hold := some (holdTime * 1000) } }

/-- R24, R29: entering SETTLING closes both valves, clears the trim end, sets the quiet count to 0 and starts the settle
timer. -/
def settlingRecord (r : GateRec) : GateRec :=
  { r with state := .settling, phase := some (.settle, 20000), endL := { r.endL with valve := .closed, stall := none },
           endR := { r.endR with valve := .closed, stall := none },
           move := { r.move with trimEnd := none, quiet := 0 } }

/-- A slot after its order has completed with report `x`: DONE for ONCE, ARMED for REARM (R59). -/
def completedWith (k : Slot) (o : Order) (x : Report) : Slot :=
  { k with state := if o.rep = .once then .done else .armed, deferred := false, unit := none, grantTime := none,
           startTime := none, report := some x }

/-- The ORDER_DONE notice of slot `k` as it stood before report `x` (R62, R207). -/
def orderDoneNotice (k : SlotNo) (old : Slot) (o : Order) (x : Report) : Notice :=
  .orderDone k old.owner o.gate o.kind o.tag x.outcome x.cause x.finalL x.finalR x.endTime x.overwritten

/-- The order of slot `k` completes with report `x` (R59, R62): the slot after it, the ORDER_DONE notice, and the offer to
the runner of a slot of its outstanding list that is now DONE and not locked (R176). -/
def completes (s : State) (k : SlotNo) (o : Order) (x : Report) : State :=
  let offered : Bool := o.rep == .once && (s.slot k).owner == .sequence && s.runner.has k && s.lock != some k
  ({ s with slots := s.slots.set k.val (completedWith (s.slot k) o x) k.isLt,
            runner := if offered then { s.runner with offers := s.runner.offers ++ [k] } else s.runner }).notify
    (orderDoneNotice k (s.slot k) o x)

/-- The gate's unit is released: an ASSIGNED one goes IDLE with its idle timer started, and a round opens (R102). -/
def releases (s : State) (u : Option UnitNo) : State :=
  match u with
  | some u =>
    if (s.unit u).state = .assigned then
      (s.setUnit u { s.unit u with state := .idle, slot := none, gate := none, cause := none,
                                   timer := some (.idle, (s.unit u).idleTime * 1000), pump := true,
                                   manifold := none }).openRound
    else s
  | none => s

/-- What becomes of the unit of an abandoned grant (R87): START_QUEUED goes OFF, STARTING goes on starting unreserved,
LINING_UP goes IDLE with its manifold closed and its idle timer started. -/
def abandonedUnit (r : PowerUnit) : PowerUnit :=
  match r.state with
  | .startQueued =>
    { r with state := .off, slot := none, gate := none, cause := none, timer := none, pump := false, manifold := none }
  | .starting => { r with slot := none, gate := none }
  | .liningUp =>
    { r with state := .idle, slot := none, gate := none, cause := none, timer := some (.idle, r.idleTime * 1000),
             pump := true, manifold := none }
  | _ => r

/-- The reservation of unit `u` is abandoned: a START_QUEUED unit also leaves the start queue (R87, R95). -/
def abandons (s : State) (u : UnitNo) : State :=
  { s with units := s.units.set u.val (abandonedUnit (s.unit u)) u.isLt,
           startQueue := if (s.unit u).state = .startQueued then s.startQueue.filter fun v => v != u
                         else s.startQueue }

/-- The starter passes to unit `v`, which leaves the start queue with `rest` behind it and enters STARTING (R95, R97). -/
def startsNext (s : State) (v : UnitNo) (rest : List UnitNo) : State :=
  { s with startQueue := rest,
           units := s.units.set v.val
             { s.unit v with state := .starting, cause := none, timer := some (.start, 10000), pump := true,
                             manifold := none } v.isLt }

/-- Unit `u` goes OUT_OF_SERVICE with a cause and its UNIT_STATE notice (R105). -/
def goesOut (s : State) (u : UnitNo) (c : OutCause) : State :=
  (s.setUnit u { s.unit u with state := .outOfService, slot := none, gate := none, cause := some c, timer := none,
                               pump := false, manifold := none }).notify (.unitState u .out c s.clock)

/-- The grant of slot `k` is returned: PENDING again, without unit and grant time, and a round opens (R56). -/
def grantReturned (s : State) (k : SlotNo) : State :=
  (s.setSlot k { s.slot k with state := .pending, unit := none, grantTime := none }).openRound

/-- The slot that has unit `u` reserved, if that slot is GRANTED, gets its grant back (R56). -/
def reservationReturned (s : State) (k : Option SlotNo) : State :=
  match k with
  | some k => if (s.slot k).state = .granted then grantReturned s k else s
  | none => s

/-- No slot waits for a grant, so a round grants nothing (R79, condition 1). -/
abbrev NoneWaits (s : State) : Prop := ∀ k : SlotNo, (s.slot k).state ≠ .pending

end Sys2Proof.Safety
end

