-- ==== Sys2Proof/Certificates/Slice0/Obligations.lean ====
section
/-! DEFINITION. The statements for the provers. Where a statement rests on a choice of the model, its docstring names the
log entry. `placeReply`, `notify`, `reply` and `finish` are the hand-over operations of Ops, Requests and Mode: a next
state written with them says of every field what becomes of it. -/

open Sys2Proof Sys2Proof.Machine Sys2Proof.Safety

/-! ### The step, reset -/

/-- The step takes the command at the front of the queue and idles on an empty one (a choice of the model, log 1). -/
def Obligations.StepRunsFrontCommand : Prop :=
  (∀ (i : Instr) (s : State), step { s with pending := i :: s.pending } = exec i s) ∧
    (∀ s : State, s.pending = [] → step s = .next s)

/-- R185: cold reset samples the strap, gives every block its cold-reset values (R75, R92, R109, R129, R142, R164,
R183), and puts the MODE notice on the line. The input levels, the queue of commands and the count of free choices stay
(a choice of the model, log 19). -/
def Obligations.ColdResetGivesColdValues : Prop :=
  ∀ (strap : LinkRate) (s : State), ∃ t, exec (.coldReset strap) s = .next t ∧
    t.mode = .config ∧ t.flavour = none ∧ t.clock = 0 ∧ t.resetHeld = false ∧
    (∀ k, t.slot k = Slot.empty) ∧ t.lock = none ∧ t.arbitration = .priority ∧
    (∀ u, t.unit u = PowerUnit.cold) ∧ t.startQueue = [] ∧ (∀ g, t.gate g = GateRec.cold) ∧ t.tide = .cold ∧
    t.envelope = .cold ∧ (∀ g, t.queue g = Queue.cold) ∧ t.stage = .cold ∧ t.definition = none ∧ t.runner = .idle ∧
    t.link = { Link.cold strap with line := some (.notice (.mode .config none none .coldReset 0)) } ∧
    t.inputs = s.inputs ∧ t.pending = s.pending ∧ t.freeCount = s.freeCount ∧ t.marks = ⟨false, false⟩

/-- The state after reset meets every law of Safety.lean. Its strap and input levels are choices of the model (logs 5,
6). -/
def Obligations.ResetStateMeetsLaws : Prop :=
  LinkBounded .reset ∧ LockLawful .reset ∧ FreeEmpty .reset ∧ StarterLawful .reset ∧ UnitsLawful .reset ∧
    QueuesFit .reset ∧ PartitionsApart .reset ∧ HistoryBounded .reset ∧ FlavourLawful .reset ∧
    GatesDriveTheirState .reset ∧ RestingGatesClear .reset ∧ MarksClear .reset

/-- R185: asserting the reset line gives every output its cold-reset value and changes nothing else; while it is held,
every command but the two resets leaves everything but the levels of the input pins as it was. That the field's levels go
on changing, and that timers and the tick of the clock are ignored too, are choices of the model (log 4). -/
def Obligations.ResetLineHoldsDevice : Prop :=
  (∀ s : State, ∃ t, exec .resetLineAsserted s = .next t ∧ t.resetHeld = true ∧ t.link = { s.link with line := none } ∧
    (∀ g c, t.channelValve g c = .closed ∧ t.channelPinCmd g c = .engage) ∧
    (∀ u, t.unit u = { s.unit u with pump := false, manifold := none }) ∧
    (∀ g, t.gate g = { s.gate g with
      endL := { (s.gate g).endL with valve := .closed, pinCmd := .engage },
      endR := { (s.gate g).endR with valve := .closed, pinCmd := .engage } }) ∧
    t = { s with resetHeld := true, gates := t.gates, units := t.units, link := t.link }) ∧
  (∀ (i : Instr) (s : State), s.resetHeld = true →
    match i with
    | .resetLineAsserted | .coldReset _ => True
    | .lockPinFeedback _ _ _ | .readyChange _ _ | .faultAssertion _ | .faultClearing _ | .linedUpChange _ _ =>
      ∃ t, exec i s = .next t ∧ t = { s with inputs := t.inputs }
    | _ => exec i s = .next s)

/-! ### The weir clock and the link port -/

/-- R193: at each tick the clock advances by 1 and from its highest value it wraps to 0; SET_CLOCK writes it and replies
with the value written; nothing else changes. -/
def Obligations.ClockTicksAndIsSet : Prop :=
  (∀ s : State, s.resetHeld = false → exec .weirClockTick s = .next { s with clock := s.clock + 1 }) ∧
    (0xFFFFFFFF#32 + 1 = 0#32) ∧
    (∀ (n : Byte) (v : Clock) (s : State), Listening s → s.mode ≠ .resetting →
      exec (.setClock n v) s = .next ({ s with clock := v }.placeReply (okReply n 0x02 (encClock v))))

/-- R195, R197: WAITING opens on the start byte and ignores other bytes; OPEN stores a byte that neither is a length
above 250 nor completes the frame, and restarts the gap timer; a low stop bit abandons an open frame and sets the mark.
The byte that completes the frame has it taken where the CRC matches and abandoned where it does not. R197, R204: the gap
timer's expiry abandons an open frame. -/
def Obligations.ReceiverBytesAndGap : Prop :=
  (∀ s : State, s.resetHeld = false →
    (s.link.rx = .waiting →
      exec (.receivedByte 0xA7 true) s =
          .next { s with link := { s.link with rx := .opened, buffer := [], gap := some Config.gapTime } } ∧
        (∀ b : Byte, b ≠ 0xA7 → exec (.receivedByte b true) s = .next s) ∧
        (∀ b : Byte, exec (.receivedByte b false) s = .next { s with link := { s.link with linkError := true } })) ∧
    (s.link.rx = .opened →
      (∀ b : Byte, ¬(s.link.buffer = [] ∧ 250 < b.toNat) →
        s.link.buffer.length + 1 ≠ frameSize (s.link.buffer ++ [b]) →
        exec (.receivedByte b true) s =
          .next { s with link := { s.link with buffer := s.link.buffer ++ [b], gap := some Config.gapTime } }) ∧
      (∀ b : Byte, s.link.buffer = [] → 250 < b.toNat →
        exec (.receivedByte b true) s = .next { s with link := s.link.abandon }) ∧
      (∀ b : Byte, exec (.receivedByte b false) s = .next { s with link := s.link.abandon }) ∧
      (∀ b : Byte, s.link.buffer.length + 1 = frameSize (s.link.buffer ++ [b]) →
        let whole := s.link.buffer ++ [b]
        let covered := whole.take (byteAt whole 0 + 3)
        let crc := crc16 covered
        let crcBytes := whole.drop (byteAt whole 0 + 3)
        (crcBytes = [crc.extractLsb' 8 8, crc.extractLsb' 0 8] →
          exec (.receivedByte b true) s =
            .next ({ s with link := { s.link with rx := .waiting, buffer := [], gap := none } }.takeFrame
              (whole.getD 1 0) (whole.getD 2 0) (covered.drop 3))) ∧
        (crcBytes ≠ [crc.extractLsb' 8 8, crc.extractLsb' 0 8] →
          exec (.receivedByte b true) s = .next { s with link :=
            { s.link with rx := .waiting, buffer := [], gap := none, linkError := true } })))) ∧
  (∀ s : State, s.resetHeld = false → s.link.rx = .opened → s.link.gap.isSome = true →
    exec .gapTimerExpiry s =
      .next { s with link := { s.link with rx := .waiting, buffer := [], gap := none, linkError := true } })

/-- R196 to R199: a frame of any kind, number and body up to 250 bytes, received byte by byte by a WAITING receiver, is
taken with exactly that kind, number and body. R199, R205, R208: taken, a kind that is no request is answered
UNKNOWN_KIND and a body of the wrong length BAD_LENGTH, before any field is looked at, the kind echoed as received; with
two replies waiting it is discarded and the link-error mark set. -/
def Obligations.FrameReceivedIsTaken : Prop :=
  (∀ (kind n : Byte) (body : List Byte) (s : State), body.length ≤ 250 → s.link.rx = .waiting →
    s.link.buffer = [] → s.link.gap = none →
    receiveAll (frameBytes kind n body) s = s.takeFrame kind n body) ∧
  (∀ (kind n : Byte) (body : List Byte) (s : State),
    let refused := fun st : Status =>
      if 2 ≤ s.link.replies.length then { s with link := { s.link with linkError := true } }
      else s.placeReply { number := n, kind := kind, status := st, detail := 0, data := [] }
    (kind.toNat = 0 ∨ 0x23 < kind.toNat → s.takeFrame kind n body = refused .unknownKind) ∧
    (∀ p ∈ [(0x01, 0), (0x02, 4), (0x03, 0), (0x04, 0), (0x05, 0), (0x06, 0), (0x07, 10), (0x09, 3), (0x0A, 1),
        (0x0B, 13), (0x0C, 7), (0x0D, 110), (0x0E, 7), (0x10, 1), (0x11, 1), (0x12, 1), (0x13, 0), (0x14, 1),
        (0x15, 1), (0x16, 1), (0x17, 2), (0x18, 0), (0x1A, 3), (0x1B, 1), (0x1C, 1), (0x1D, 5), (0x1F, 3), (0x20, 1),
        (0x21, 8), (0x22, 0), (0x23, 0)],
      kind.toNat = p.1 → body.length ≠ p.2 → s.takeFrame kind n body = refused .badLength) ∧
    (kind = 0x08 → body.length < 2 ∨ body.length ≠ (if body.getD 1 0 = 0 then 2 else 33) →
      s.takeFrame kind n body = refused .badLength) ∧
    (kind = 0x0F →
      let trigger := if body.getD 3 0 = 0 then 7 else 9
      body.length ≠ trigger + (if body.getD trigger 0 = 0 then 4 else 6) →
      s.takeFrame kind n body = refused .badLength) ∧
    (kind = 0x19 → body.length < 2 ∨ body.length ≠ 2 + 5 * (body.getD 1 0).toNat →
      s.takeFrame kind n body = refused .badLength) ∧
    (kind = 0x1E → body.length = 0 ∨ body.length ≠ 1 + 2 * (body.getD 0 0).toNat →
      s.takeFrame kind n body = refused .badLength))

/-- R202: a disabled kind is lost without trace; an enabled one is discarded with the notices-lost mark from a full
queue and otherwise appended; with nothing waiting and the line idle it starts there at once. R201: when a frame has
finished, the oldest reply goes on the line, else the oldest notice, else nothing. R199 to R201: a reply joins the end of
the reply area, and on an idle line the oldest reply starts at once; whether a reply or a notice of the same event starts
first on a line that was idle is left open (log 7). R196, R205: what a frame on the line
is made of. -/
def Obligations.NoticesAndTransmission : Prop :=
  (∀ (m : Notice) (s : State),
    (s.link.enables.get m.kindIndex = false → s.notify m = s) ∧
    (s.link.enables.get m.kindIndex = true → 16 ≤ s.link.notices.length →
      s.notify m = { s with link := { s.link with noticesLost := true } }) ∧
    (s.link.enables.get m.kindIndex = true → s.link.notices.length < 16 → s.link.line.isSome = true →
      s.notify m = { s with link := { s.link with notices := s.link.notices ++ [m] } }) ∧
    (s.link.enables.get m.kindIndex = true → s.link.notices = [] → s.link.replies = [] → s.link.line = none →
      s.notify m = { s with link := { s.link with line := some (.notice m) } })) ∧
  (∀ s : State, s.resetHeld = false → s.link.line.isSome = true →
    exec .frameFinished s =
      .next { s with link :=
        match s.link.replies, s.link.notices with
        | r :: rest, _ => { s.link with line := some (.reply r), replies := rest }
        | [], m :: rest => { s.link with line := some (.notice m), notices := rest }
        | [], [] => { s.link with line := none } }) ∧
  (∀ (kind n : Byte) (body : List Byte),
    let covered := [BitVec.ofNat 8 body.length, kind, n] ++ body
    frameBytes kind n body =
      [0xA7] ++ covered ++ [(crc16 covered).extractLsb' 8 8, (crc16 covered).extractLsb' 0 8]) ∧
  (∀ r : Reply, (TxFrame.reply r).bytes =
    frameBytes 0x80 r.number ([r.kind, BitVec.ofNat 8 r.status.code, r.detail] ++ r.data)) ∧
  (∀ m : Notice, (TxFrame.notice m).bytes = frameBytes (BitVec.ofNat 8 (0x41 + m.kindIndex.val)) 0 m.body) ∧
  (∀ (r : Reply) (s : State),
    (s.link.line.isSome = true → s.placeReply r = { s with link := { s.link with replies := s.link.replies ++ [r] } }) ∧
    (s.link.line = none → s.link.replies = [] →
      s.placeReply r = { s with link := { s.link with line := some (.reply r) } }) ∧
    (∀ (q : Reply) (rest : List Reply), s.link.line = none → s.link.replies = q :: rest →
      s.placeReply r = { s with link := { s.link with line := some (.reply q), replies := rest ++ [r] } }) ∧
    s.reply false r = s.placeReply r ∧
    ((∀ m, s.link.line ≠ some (.notice m)) → s.reply true r = s.placeReply r) ∧
    (∀ m, s.link.line = some (.notice m) →
      s.reply true r = { s.placeReply r with freeCount := s.freeCount + 1 } ∨
      s.reply true r = { s with
        freeCount := s.freeCount + 1,
        link := { s.link with line := some (.reply r), notices := (m :: s.link.notices).take 16,
                              noticesLost := s.link.noticesLost || decide (16 < s.link.notices.length + 1) } }))

/-- R192: the mode test comes before any field. In RESETTING every request but STATUS is refused with RESETTING, and
outside CONFIG the six configuration requests with WRONG_MODE; the state stays but for the reply. R199, R204: a request
that completes while two replies wait is discarded without effect, and the link-error mark is set. -/
def Obligations.RequestsAreAdmittedByMode : Prop :=
  (∀ (n : Byte) (r : Request) (s : State), s.link.replies.length < 2 →
    (s.mode = .resetting → r ≠ .status →
      s.takeRequest n r = s.placeReply
        { number := n, kind := BitVec.ofNat 8 (codeOf r), status := .resetting, detail := 0,
          data := if r = .run ∨ r = .hold ∨ r = .stopAll then s.encMode else [] }) ∧
    ((s.mode = .run ∨ s.mode = .draining) → configOnly r = true →
      s.takeRequest n r = s.placeReply
        { number := n, kind := BitVec.ofNat 8 (codeOf r), status := .wrongMode, detail := 0, data := [] })) ∧
  (∀ (n : Byte) (r : Request) (s : State), 2 ≤ s.link.replies.length →
    s.takeRequest n r = { s with link := { s.link with linkError := true } })

/-- Requests that read, in the modes that take them: the reply carries the record as it stands and nothing else changes;
STATUS, in every mode, also clears the two marks (R15, R67, R128, R150, R152, R168, R194). R206: the bytes of numbers,
millimetres within two signed bytes, clock values, flags and optional fields. R194, R15, R67: the items of STATUS,
READ_GATE and LIST_SLOTS in their order; R128, R152, R168, R145: those of READ_TIDE, READ_QUEUE, READ_CELLS and of a point.
The codes of values that R206 and R207 do not tabulate, and the place of a unit's cause in STATUS, are choices of the model
(log 16); millimetres beyond two signed bytes and the silicon revision are free values
(logs 10 and 11). -/
def Obligations.ReadsReplyAndKeepState : Prop :=
  (∀ (n : Byte) (s : State), Listening s →
    exec (.status n) s = .next
      ({ s with link := { s.link with noticesLost := false, linkError := false } }.placeReply
        (okReply n 0x01 s.encStatus)) ∧
    (s.mode ≠ .resetting →
      exec (.listSlots n) s = .next (s.placeReply (okReply n 0x13 s.encSlots)) ∧
      exec (.readTide n) s = .next (s.placeReply (okReply n 0x18 s.encTide)) ∧
      (∀ g : GateNo, exec (.readGate n g.val) s = .next (s.placeReply (okReply n 0x14 (s.encGate g)))) ∧
      (∀ g : GateNo, exec (.readQueue n g.val) s = .next (s.placeReply (okReply n 0x1C (encQueue (s.queue g))))) ∧
      (∀ i : StepNo, exec (.readCells n i.val) s = .next (s.placeReply (okReply n 0x20 (encCells s.stage i)))) ∧
      (∀ (g : GateNo) (p c : Nat), p ≤ 127 → 1 ≤ c → c ≤ 16 → (s.queue g).size ≠ 0 →
        exec (.peekPoints n g.val p c) s = .next (s.placeReply (okReply n 0x1A
          (encU8 (s.queue g).level ++ encU8 (((s.queue g).points.drop p).take c).length
            ++ ((((s.queue g).points.drop p).take c).map encPoint).flatten)))))) ∧
  ((∀ x : Nat, encU8 x = [BitVec.ofNat 8 x] ∧ encU16 x = [BitVec.ofNat 8 (x / 256), BitVec.ofNat 8 x]) ∧
    (∀ x : Int, -32768 ≤ x → x ≤ 32767 →
      encMm x = [BitVec.ofNat 8 ((x % 65536).toNat / 256), BitVec.ofNat 8 (x % 65536).toNat]) ∧
    (∀ c : Clock, encClock c = [c.extractLsb' 24 8, c.extractLsb' 16 8, c.extractLsb' 8 8, c.extractLsb' 0 8]) ∧
    encFlag false = [0] ∧ encFlag true = [1] ∧
    (∀ x : Option Int, encOpt encMm x = match x with
      | none => [0]
      | some v => 1 :: encMm v)) ∧
  (∀ s : State,
    s.encStatus =
      encU8 s.mode.code ++ encOpt (fun f : Flavour => encU8 f.code) s.flavour ++ encClock s.clock
        ++ encU8 (allGates.map fun g => if (s.gate g).state = .absent then 0 else 2 ^ g.val).sum
        ++ (allGates.map fun g => encU8 (s.gate g).state.code).flatten
        ++ (allUnits.map fun u => encU8 (s.unit u).state.code
              ++ encOpt (fun c : OutCause => encU8 c.code) (s.unit u).cause).flatten
        ++ encU8 s.runner.state.code
        ++ ([SlotState.free, .armed, .pending, .granted, .running, .done].map fun st =>
              encU8 (allSlots.filter fun k => (s.slot k).state == st).length).flatten
        ++ encFlag s.link.noticesLost ++ encFlag s.link.linkError ++ [1, 6, Config.siliconRevision] ∧
    s.encSlots = (allSlots.map fun k =>
      encU8 (s.slot k).state.code ++ encU8 (s.slot k).owner.code
        ++ encOpt (fun o : Order => encU8 o.gate.val) (s.slot k).order
        ++ encOpt (fun o : Order => encU8 o.kind.code) (s.slot k).order ++ encFlag (s.lock == some k)
        ++ encFlag (((s.slot k).report.map fun r => r.unread).getD false)).flatten ∧
    (∀ g : GateNo,
      let r := s.gate g
      (r.state = .absent → s.encGate g = [0, 0, 0, 0, 0, 0, 0, 0] ++ encFlag r.levelRequired ++ [0, 0, 0, 0, 0, 0, 0]) ∧
      (r.state ≠ .absent → s.encGate g =
        encU8 r.state.code ++ encOpt encMm r.endL.held ++ encOpt encMm r.endR.held ++ encOpt encMm r.opening
          ++ encOpt encMm r.skew ++ encOpt encMm r.move.target ++ encOpt (fun k : SlotNo => encU8 k.val) r.move.slot
          ++ encOpt (fun u : UnitNo => encU8 u.val) r.move.unit ++ encFlag r.levelRequired
          ++ [1] ++ encU8 r.endL.status.code ++ [1] ++ encU8 r.endR.status.code
          ++ encOpt encU16 r.endL.pressure ++ encOpt encU16 r.endR.pressure
          ++ [1] ++ encU8 (pinCode (s.pin g .l)) ++ [1] ++ encU8 (pinCode (s.pin g .r))
          ++ encOpt (fun t : TripRec => encU8 t.first.index ++ encU8 t.further.toNat ++ encU8 t.concerned.code
              ++ encClock t.time) r.trip)))∧
  (∀ s : State,
    let t := s.tide
    s.encTide =
      encU8 t.up.state.code ++ encU8 t.down.state.code ++ encOpt encMm t.up.level ++ encOpt encMm t.down.level
        ++ encOpt encMm t.head ++ encOpt (fun b : BandNo => encU8 b.val) s.envelope.band ++ encU8 t.direction.code
        ++ encU8 t.confirmCount ++ encOpt (fun x : Side => encU8 x.code) t.confirmSide
        ++ (allThresholds.map fun i =>
              let r := t.thresholds.get i
              encU8 r.signal.code ++ encMm r.level ++ encMm r.hysteresis ++ encFlag r.enabled ++ encU8 r.state.code).flatten
        ++ encU8 t.history.length ++ encFlag t.surge) ∧
  (∀ q : Queue, encQueue q =
    encU8 q.base ++ encU8 q.size ++ encU8 q.points.length ++ encU8 q.readPos
      ++ encU8 (if q.size = 0 then q.base else q.base + (q.readPos - q.base + q.points.length) % q.size)
      ++ encU8 q.limit ++ encU8 q.limitDir.code ++ encU16 q.holdTime) ∧
  (∀ (t : Stage) (i : StepNo), encCells t i =
    encU16 (t.steps.get i).dwell
      ++ (allGates.map fun g => match (t.steps.get i).cells.get g with
            | none => [255, 255]
            | some x => encMm x).flatten
      ++ encU8 t.window.firstStep.val ++ encU8 t.window.lastStep.val ++ encU8 t.window.firstGate.val
      ++ encU8 t.window.lastGate.val ++ encU8 t.window.advance.code ++ encU8 t.pointer.1.val ++ encU8 t.pointer.2.val) ∧
  (∀ p : Point, encPoint p = encMm p.target ++ encU16 p.stepTime ++ encU8 p.tag.code) ∧
  ([GaugeState.unknown, .good, .faulted].map GaugeState.code = [0, 1, 2] ∧
    [TideDir.unknown, .ebb, .flood].map TideDir.code = [0, 1, 2] ∧ [Side.ebb, .flood].map Side.code = [0, 1] ∧
    [Signal.up, .down, .head].map Signal.code = [0, 1, 2] ∧
    [ThrState.unknown, .below, .above].map ThrState.code = [0, 1, 2] ∧
    [LimitDir.falling, .rising].map LimitDir.code = [0, 1] ∧ [PointTag.plain, .mark, .last].map PointTag.code = [0, 1, 2] ∧
    [Advance.gateFirst, .stepFirst].map Advance.code = [0, 1] ∧
    [EncStatus.unknown, .good, .faulted].map EncStatus.code = [0, 1, 2] ∧
    [PinPos.engaged, .withdrawn, .between].map pinCode = [0, 1, 2] ∧
    [RunnerState.idle, .posting, .step, .dwell, .windingDown].map RunnerState.code = [0, 1, 2, 3, 4]) ∧
  ([DeviceMode.config, .run, .draining, .resetting].map DeviceMode.code = [0, 1, 2, 3] ∧
    [GateState.absent, .parked, .releasing, .building, .travel, .held, .settling, .locking, .tripped].map
      GateState.code = [0, 1, 2, 3, 4, 5, 6, 7, 8] ∧
    [UnitState.off, .startQueued, .starting, .idle, .liningUp, .assigned, .outOfService].map UnitState.code =
      [0, 1, 2, 3, 4, 5, 6] ∧
    [SlotState.free, .armed, .pending, .granted, .running, .done].map SlotState.code = [0, 1, 2, 3, 4, 5] ∧
    [TripCause.encoder, .lockPin, .pressure, .stall, .skew, .overtravel, .powerLost].map TripCause.index =
      [0, 1, 2, 3, 4, 5, 6])

/-! ### Mode control -/

/-- R186: RUN in CONFIG with a gate present, and in a HOLD drain, makes the mode RUN and hands over the MODE notice; where
no slot is PENDING the round it opens grants nothing, and nothing else changes. -/
def Obligations.RunEntersRun : Prop :=
  ∀ (n : Byte) (s : State), Listening s → MarksClear s →
    (s.mode = .config ∧ s.anyPresent = true ∨ s.mode = .draining ∧ s.flavour = some .hold) →
    (StarterLawful s → ∃ t, exec (.run n) s = .next t ∧ t.mode = .run ∧ t.flavour = none ∧ t.gates = s.gates ∧ t.clock = s.clock ∧
      t.runner = s.runner ∧ t.tide = s.tide ∧ t.stage = s.stage ∧ t.queues = s.queues ∧
      (∀ k, (s.slot k).state ≠ .pending → t.slot k = s.slot k)) ∧
    ((∀ k, (s.slot k).state ≠ .pending) →
      exec (.run n) s = .next
        (({ s with mode := .run, flavour := none }.notify (.mode .run none (some s.mode) .request s.clock)).reply
          s.link.line.isNone (okReply n 0x03 (encU8 1 ++ [0]))))

/-- R187, R73, R162: HOLD in RUN ends every grant with the slot PENDING and its order kept, cuts no gate but one that runs
a STREAM order (a HELD one goes to LOCKING with outcome CUT unless one was pending), and leaves the mode DRAINING with flavour HOLD while a slot is RUNNING, else CONFIG. -/
def Obligations.HoldBeginsDrain : Prop :=
  ∀ (n : Byte) (s : State), Listening s → MarksClear s → s.mode = .run →
    ∃ t, exec (.hold n) s = .next t ∧
      (if t.runningCount = 0 then t.mode = .config ∧ t.flavour = none
       else t.mode = .draining ∧ t.flavour = some .hold) ∧
      (∀ k, (s.slot k).state = .granted →
        (t.slot k).state = .pending ∧ (t.slot k).unit = none ∧ (t.slot k).grantTime = none ∧
          (t.slot k).order = (s.slot k).order ∧ (t.slot k).report = (s.slot k).report) ∧
      (∀ g, (s.gate g).kind ≠ some .stream → t.gate g = s.gate g) ∧
      (∀ g, (s.gate g).kind = some .stream → (s.gate g).state = .travel →
        t.gate g = { s.gate g with move := { (s.gate g).move with cut := true } }) ∧
      (∀ g, (s.gate g).kind = some .stream → (s.gate g).state = .releasing ∨ (s.gate g).state = .building →
        t.gate g = { s.gate g with move := { (s.gate g).move with cut := true } }) ∧
      (∀ g, (s.gate g).kind = some .stream → (s.gate g).state = .held → s.bothPins g .engaged = false →
        EntersLocking (s.gate g) (t.gate g) ∧
          (t.gate g).move.outcome = some ((s.gate g).move.outcome.getD .cut)) ∧
      t.runner.state = s.runner.state ∧ t.tide = s.tide ∧ t.clock = s.clock

/-- R188, R41, R60, R31: STOP_ALL in RUN, and in a HOLD or STOP drain, takes every moving gate to LOCKING with pending outcome
STOPPED, or to PARKED where both its pins read ENGAGED already; a gate in LOCKING stays there with outcome STOPPED; no order
is left GRANTED; a runner that waits in POSTING or DWELL is stopped. The stops come in an order that the spec leaves open
(log 8). R188, R181: in CONFIG the mode stays and the runner alone is given its stop. -/
def Obligations.StopAllStopsEverything : Prop :=
  (∀ (n : Byte) (s : State), Listening s → MarksClear s → s.mode = .run ∨ s.mode = .draining →
    ∃ t, exec (.stopAll n) s = .next t ∧
      (if t.runningCount = 0 then t.mode = .config ∧ t.flavour = none
       else t.mode = .draining ∧ t.flavour = some .stop) ∧
      (∀ g, (s.gate g).state.moving = true → (s.gate g).state ≠ .locking →
        (s.bothPins g .engaged = true → (t.gate g).state = .parked) ∧
        (s.bothPins g .engaged = false →
          EntersLocking (s.gate g) (t.gate g) ∧ (t.gate g).move.outcome = some .stopped)) ∧
      (∀ g, (s.gate g).state = .locking →
        t.gate g = { s.gate g with move := { (s.gate g).move with outcome := some .stopped } }) ∧
      (∀ g, (s.gate g).state.moving = false → t.gate g = s.gate g) ∧
      (∀ k, (s.slot k).state = .granted → (s.slot k).order.isSome = true → (t.slot k).state ≠ .granted) ∧
      (s.runner.state = .posting ∨ s.runner.state = .dwell → s.runner.outstanding = [] → t.runner.state = .idle) ∧
      t.tide = s.tide ∧ t.clock = s.clock) ∧
  (∀ (n : Byte) (s : State), Listening s → MarksClear s → s.mode = .config → s.flavour = none →
    let answer := okReply n 0x05 [0, 0]
    let ended := fun x : State => (x.setRunner .idle).notify
        (.sequenceEnd .aborted (s.runner.step.getD 0) (s.runner.pass.getD 0) none none s.clock)
    (s.runner.state = .idle ∨ s.runner.state = .windingDown → exec (.stopAll n) s = .next (s.placeReply answer)) ∧
    (s.runner.state = .posting ∨ s.runner.state = .dwell → s.runner.outstanding = [] →
      exec (.stopAll n) s = .next ((ended s).reply s.link.line.isNone answer)) ∧
    (∀ (k : SlotNo) (g : GateNo), s.runner.state = .step → s.runner.outstanding = [(k, g)] →
      (s.slot k).owner = .sequence → (s.slot k).state = .pending →
      exec (.stopAll n) s = .next
        ((ended ({ s with lock := if s.lock = some k then none else s.lock }.setSlot k Slot.empty)).reply
          s.link.line.isNone answer)))

/-- R190, R191, R74, R164, R183: a warm reset with every gate at rest ends in its own event. The reply comes first, the
table is empty, the runner IDLE, every queue empty; gates, tide, envelope, clock, arbitration and definition are kept.
R44, R61, R74, R190: with a gate moving it begins RESETTING: each moving gate gets the reset mark and goes to LOCKING with
pending outcome STOPPED (its pins not reading ENGAGED), a RUNNING slot becomes the host's, every other one FREE. R61,
R191: it ends when the last moving gate parks or trips; that gate's order is dropped without a report. -/
def Obligations.WarmResetAtRestEnds : Prop :=
  (∀ (n : Byte) (s : State), Listening s → MarksClear s → s.mode ≠ .resetting →
    (∀ g, (s.gate g).state.moving = false) → (∀ k, (s.slot k).state ≠ .running) →
    ∃ t, exec (.reset n) s = .next t ∧ t.mode = .config ∧ t.flavour = none ∧ (∀ k, t.slot k = Slot.empty) ∧
      t.lock = none ∧ t.runner = .idle ∧ (∀ g, t.queue g = (s.queue g).emptied) ∧ t.gates = s.gates ∧
      t.tide = s.tide ∧ t.envelope = s.envelope ∧ t.clock = s.clock ∧ t.arbitration = s.arbitration ∧
      t.definition = s.definition ∧ t.stage.steps = s.stage.steps ∧ t.stage.window = s.stage.window ∧
      t.stage.pointer = (s.stage.window.firstStep, s.stage.window.firstGate) ∧
      t.link.enables = s.link.enables ∧
      (if s.link.line.isSome then t.link.line = s.link.line ∧ t.link.replies = [okReply n 0x06 []]
       else t.link.line = some (.reply (okReply n 0x06 [])) ∧ t.link.replies = [])) ∧
  (∀ (n : Byte) (s : State), Listening s → MarksClear s → s.mode ≠ .resetting →
    (∃ g, (s.gate g).state.moving = true) →
    (∀ g, (s.gate g).state.moving = true → (s.gate g).state ≠ .locking → s.bothPins g .engaged = false) →
    ∃ t, exec (.reset n) s = .next t ∧ t.mode = .resetting ∧ t.flavour = none ∧ t.lock = none ∧ t.runner = .idle ∧
      (∀ g, (s.gate g).state.moving = true → (s.gate g).state ≠ .locking →
        EntersLocking { s.gate g with move := { (s.gate g).move with resetMark := true } } (t.gate g) ∧
          (t.gate g).move.outcome = some .stopped) ∧
      (∀ g, (s.gate g).state = .locking →
        t.gate g = { s.gate g with move := { (s.gate g).move with resetMark := true } }) ∧
      (∀ g, (s.gate g).state.moving = false → t.gate g = s.gate g) ∧
      (∀ k, t.slot k = if (s.slot k).state = .running then { s.slot k with owner := .host } else Slot.empty) ∧
      t.queues = s.queues ∧ t.tide = s.tide ∧ t.envelope = s.envelope ∧ t.clock = s.clock ∧
      t.link.notices =
        (if s.link.enables.get 9 then [.mode .resetting none (some s.mode) .request s.clock] else []) ∧
      (if s.link.line.isSome then t.link.line = s.link.line ∧ t.link.replies = [okReply n 0x06 []]
       else t.link.line = some (.reply (okReply n 0x06 [])) ∧ t.link.replies = [])) ∧
  (∀ (g : GateNo) (k : SlotNo) (s : State), s.resetHeld = false → MarksClear s → s.mode = .resetting →
    (s.gate g).state = .locking → (∀ h, h ≠ g → (s.gate h).state.moving = false) → (s.gate g).move.slot = some k →
    (s.gate g).move.resetMark = true → (s.slot k).state = .running → (∀ j, j ≠ k → (s.slot j).state ≠ .running) →
    let ended := fun t : State => t.mode = .config ∧ t.flavour = none ∧ t.slot k = Slot.empty ∧
      (∀ h, t.queue h = { s.queue h with points := [], readPos := (s.queue h).base })
    (∀ ch : Channel, (s.pinInput g).level ch ≠ .engaged →
      (s.setPinInput g ((s.pinInput g).put ch .engaged)).bothPins g .engaged = true →
      ∃ t, exec (.lockPinFeedback g ch .engaged) s = .next t ∧ (t.gate g).state = .parked ∧ ended t) ∧
    ((s.gate g).runs .lock = true →
      ∃ t, exec (.lockTimerExpiry g) s = .next t ∧ (t.gate g).state = .tripped ∧ ended t))

/-! ### Configuration -/

/-- R11, R13: CONFIGURE_GATE with PRESENT and every field in range writes all the parameters; an ABSENT gate becomes
PARKED; both ends' encoders become UNKNOWN with no held opening and their silence timers started. R12: CONFIGURE_GATE
with ABSENT, no slot naming the gate ARMED or PENDING: the gate becomes ABSENT, its parameters kept and everything else
of its record discarded. -/
def Obligations.ConfigureGateWrites : Prop :=
  (∀ (n : Byte) (g : GateNo) (p : RawGate) (s : State), Listening s → MarksClear s → s.mode = .config →
    firstBad (gateChecks p) = none →
    ∃ r, exec (.configureGatePresent n g.val p) s = .next ((s.setGate g r).placeReply (okReply n 0x08 [])) ∧
      r.params = gateParamsOf p ∧
      (∀ e : HoistEnd, r.hoist e =
        { (s.gate g).hoist e with status := .unknown, held := none, reference := none, silence := some 250,
                                  recovery := 0 }) ∧
      ((s.gate g).state = .absent →
        r.state = .parked ∧ r.levelRequired = false ∧ r.trip = none ∧ r.move = Move.empty) ∧
      ((s.gate g).state ≠ .absent →
        r.state = (s.gate g).state ∧ r.levelRequired = (s.gate g).levelRequired ∧ r.trip = (s.gate g).trip ∧
          r.phase = (s.gate g).phase)) ∧
  (∀ (n : Byte) (g : GateNo) (s : State), Listening s → MarksClear s → s.mode = .config →
    (s.gate g).state ≠ .absent → s.awaitsGate g = false →
    exec (.configureGateAbsent n g.val) s = .next
      ((s.setGate g { GateRec.cold with params := (s.gate g).params }).placeReply (okReply n 0x08 [])))

/-- R91, R108, R203: CONFIGURE_ARBITER replaces the mode and replies with it, CONFIGURE_UNIT writes the idle_time alone,
SET_NOTICES writes the ten enables at once and replies with them. -/
def Obligations.ConfigureSmallSettings : Prop :=
  (∀ (n : Byte) (s : State), Listening s → MarksClear s → s.mode = .config →
    (exec (.configureArbiter n 0) s = .next ({ s with arbitration := .priority }.placeReply (okReply n 0x0A [0]))) ∧
    (exec (.configureArbiter n 1) s = .next ({ s with arbitration := .slotOrder }.placeReply (okReply n 0x0A [1]))) ∧
    (∀ (u : UnitNo) (x : Nat), 10 ≤ x → x ≤ 600 → exec (.configureUnit n u.val x) s = .next
      ((s.setUnit u { s.unit u with idleTime := x }).placeReply (okReply n 0x09 [])))) ∧
  (∀ (n : Byte) (e : Vector Bool 10) (s : State), Listening s → s.mode ≠ .resetting →
    exec (.setNotices n (e.toList.map fun b : Bool => if b then 1 else 0)) s = .next
      ({ s with link := { s.link with enables := e } }.placeReply
        (okReply n 0x07 (e.toList.map fun b : Bool => if b then 1 else 0))))

/-- R119, R127: CONFIGURE_THRESHOLD writes the settings with the state UNKNOWN; CONFIGURE_TIDE writes its seven settings
and clears the confirm count. R141: CONFIGURE_ENVELOPE with every field in range writes the boundaries and the cells,
cell B*b* G*g* being the field 8 + 6 b + g, and places a known head in its band. -/
def Obligations.ConfigureTideAndEnvelopeWrite : Prop :=
  (∀ (n : Byte) (s : State), Listening s → MarksClear s →
    (∀ f : RawTide, s.mode = .config → firstBad (tideChecks f) = none →
      exec (.configureTide n f) s = .next ({ s with tide :=
        { s.tide with up := { s.tide.up with low := f.upLow, high := f.upHigh },
                      down := { s.tide.down with low := f.downLow, high := f.downHigh },
                      turnBand := f.turnBand, turnConfirm := f.turnConfirm, surgeRate := f.surgeRate,
                      confirmCount := 0, confirmSide := none } }.placeReply (okReply n 0x0B []))) ∧
    (∀ (i : ThrNo) (f : RawThreshold) (sig : Signal), s.mode ≠ .resetting → f.index = i.val →
      signalOf f.signal = some sig → firstBad (thresholdChecks f) = none →
      exec (.configureThreshold n f) s = .next ((s.setTide (s.tide.setThreshold i
        { signal := sig, level := f.level, hysteresis := f.hysteresis, enabled := f.enabled == 1,
          state := .unknown })).placeReply (okReply n 0x0C [])))) ∧
  (∀ (n : Byte) (b c : List Int) (s : State), Listening s → MarksClear s → s.mode = .config → b.length = 7 →
    c.length = 48 → firstBad (boundaryChecks 1 none b ++ cellChecks s.openingMaxOf 0 c) = none →
    ∃ e : Envelope, exec (.configureEnvelope n b c) s =
        .next ({ s with envelope := e }.placeReply (okReply n 0x0D [])) ∧
      (∀ i : Fin 7, e.boundaries.get i = b.getD i.val 0) ∧
      (∀ (i : BandNo) (g : GateNo), e.cell i g = c.getD (6 * i.val + g.val) 0) ∧
      e.band = s.tide.head.map (bandOf e.boundaries))

/-- R144: CONFIGURE_QUEUE writes the five settings; a changed partition needs an empty queue and no shared cell, and puts
the read position at the new base. A changed partition of a queue that holds points is refused NOT_EMPTY; a size above 0
that shares a cell with another gate's partition is refused OVERLAP. A refusal changes nothing. -/
def Obligations.ConfigureQueueWrites : Prop :=
  (∀ (n : Byte) (g : GateNo) (f : RawQueue) (d : LimitDir) (s : State), Listening s → MarksClear s →
    s.mode = .config → f.gate = g.val → limitDirOf f.limitDir = some d → firstBad (queueChecks f) = none →
    (((s.queue g).base = f.base ∧ (s.queue g).size = f.size ∨ (s.queue g).points = []) →
      (f.size = 0 ∨ s.overlapsOther g f.base f.size = false) →
      exec (.configureQueue n f) s = .next
        ((s.setQueue g { base := f.base, size := f.size, limit := f.limit, limitDir := d, holdTime := f.holdTime,
                         readPos := if (s.queue g).base = f.base ∧ (s.queue g).size = f.size then (s.queue g).readPos
                                    else f.base,
                         points := (s.queue g).points }).placeReply (okReply n 0x0E []))) ∧
    (¬((s.queue g).base = f.base ∧ (s.queue g).size = f.size) → (s.queue g).points ≠ [] →
      exec (.configureQueue n f) s = .next (s.placeReply
        { number := n, kind := 0x0E, status := .notEmpty, detail := 0, data := [] })) ∧
    (((s.queue g).base = f.base ∧ (s.queue g).size = f.size ∨ (s.queue g).points = []) →
      0 < f.size → s.overlapsOther g f.base f.size = true →
      exec (.configureQueue n f) s = .next (s.placeReply
        { number := n, kind := 0x0E, status := .overlap, detail := 0, data := [] }))) ∧
  (∀ (g : GateNo) (base size : Nat) (s : State),
    s.overlapsOther g base size = true ↔ ∃ h, h ≠ g ∧ (s.queue h).size ≠ 0 ∧
      base < (s.queue h).base + (s.queue h).size ∧ (s.queue h).base < base + size)

/-! ### The order table -/

/-- R50, R46, R70: a POST_ORDER that passes its checks, on a slot of the host that is FREE, ARMED, PENDING or DONE, leaves
the slot with the order alone: ARMED with a trigger, PENDING without one. Only in RUN does the round that a PENDING slot
opens do more: it may grant. R50, R57, R87: on a GRANTED slot of the host it writes the slot in the same way, and the
grant is abandoned. R50, R52, R179, R180: on the one outstanding slot of a runner in STEP it writes the slot for the host,
and the notice of interference ends the sequence FAILED with cause INTERFERED and that slot. -/
def Obligations.PostOrderWritesSlot : Prop :=
  ∀ (n : Byte) (k : SlotNo) (g : GateNo) (f : RawOrder) (s : State), Listening s → MarksClear s →
    let written := fun st : SlotState => { s with lock := if s.lock = some k then none else s.lock }.setSlot k
      { Slot.empty with state := st, order := some (orderOf f g) }
    s.mode ≠ .resetting → firstBad (orderChecks k.val f) = none → f.gate = g.val →
    (s.gate g).state ≠ .absent → ¬(f.kind = 0 ∧ (s.gate g).params.openingMax < f.target) →
    ¬(f.rule = 2 ∧ (s.gate g).params.overrideAllowed = false) →
    ((s.slot k).state ≠ .running → (s.slot k).state ≠ .granted → (s.slot k).owner = .host →
    (f.triggerPresence = 1 →
      exec (.postOrder n k.val f) s = .next
        (({ s with lock := if s.lock = some k then none else s.lock }.setSlot k
          { Slot.empty with state := .armed, order := some (orderOf f g) }).placeReply (okReply n 0x0F []))) ∧
    (f.triggerPresence = 0 → s.mode ≠ .run →
      exec (.postOrder n k.val f) s = .next
        (({ s with lock := if s.lock = some k then none else s.lock }.setSlot k
          { Slot.empty with state := .pending, order := some (orderOf f g) }).placeReply (okReply n 0x0F []))) ∧
    (f.triggerPresence = 0 → s.mode = .run →
      ∃ t, exec (.postOrder n k.val f) s = .next t ∧ t.gates = s.gates ∧ t.tide = s.tide ∧ t.runner = s.runner ∧
        (t.slot k).order = some (orderOf f g) ∧ (t.slot k).report = none ∧
        ((t.slot k).state = .pending ∨ (t.slot k).state = .granted))) ∧
    (∀ u : UnitNo, (s.slot k).state = .granted → (s.slot k).owner = .host → (s.slot k).unit = some u →
      (f.triggerPresence = 1 → NoneWaits s →
        exec (.postOrder n k.val f) s = .next ((abandons (written .armed) u).placeReply (okReply n 0x0F []))) ∧
      (f.triggerPresence = 0 →
        exec (.postOrder n k.val f) s = .next
          ((abandons (written .pending) u).openRound.finish.reply s.link.line.isNone (okReply n 0x0F [])))) ∧
    (∀ h : GateNo, (s.slot k).owner = .sequence → (s.slot k).state = .pending ∨ (s.slot k).state = .done →
      s.runner.state = .step → s.runner.outstanding = [(k, h)] → f.triggerPresence = 1 →
      exec (.postOrder n k.val f) s = .next
        (({ written .armed with runner := .idle }.notify
          (.sequenceEnd .failed (s.runner.step.getD 0) (s.runner.pass.getD 0) (some .interfered) (some k)
            s.clock)).reply s.link.line.isNone (okReply n 0x0F [])))

/-- R51, R48, R57, R173: WITHDRAW_ORDER frees an ARMED, PENDING or DONE slot of the host with its lock, and calls for a
posting attempt where the runner waits in POSTING for its window; a FREE slot is taken with no effect, a RUNNING one
refused; a GRANTED one is freed with its grant abandoned. R87: the unit it had reserved goes IDLE from LINING_UP, OFF from
START_QUEUED, or goes on STARTING unreserved (no other slot waiting for a grant). -/
def Obligations.WithdrawFreesSlot : Prop :=
  ∀ (n : Byte) (k : SlotNo) (s : State), Listening s → MarksClear s → s.mode ≠ .resetting →
    ((s.slot k).state = .free → exec (.withdrawOrder n k.val) s = .next (s.placeReply (okReply n 0x10 []))) ∧
    ((s.slot k).state = .running → exec (.withdrawOrder n k.val) s = .next
      (s.placeReply { number := n, kind := 0x10, status := .slotBusy, detail := 0, data := [] })) ∧
    ((s.slot k).state = .armed ∨ (s.slot k).state = .pending ∨ (s.slot k).state = .done →
      (s.slot k).owner = .host →
      exec (.withdrawOrder n k.val) s = .next
        (({ s with lock := if s.lock = some k then none else s.lock,
                   runner := { s.runner with attemptsDue := s.runner.attemptsDue +
                                               if s.awaited k then 1 else 0 } }.setSlot k Slot.empty).placeReply
          (okReply n 0x10 []))) ∧
    ((s.slot k).state = .granted → (s.slot k).owner = .host →
      ∃ t, exec (.withdrawOrder n k.val) s = .next t ∧ t.slot k = Slot.empty ∧ t.gates = s.gates ∧ t.tide = s.tide ∧
        t.mode = s.mode) ∧
    (∀ u : UnitNo, (s.slot k).state = .granted → (s.slot k).owner = .host → (s.slot k).unit = some u → NoneWaits s →
      exec (.withdrawOrder n k.val) s = .next
        ((abandons ({ s with lock := if s.lock = some k then none else s.lock,
                             runner := { s.runner with attemptsDue := s.runner.attemptsDue +
                                                         if s.awaited k then 1 else 0 } }.setSlot k Slot.empty) u).placeReply
          (okReply n 0x10 [])))

/-- R63, R64: READ_SLOT replies with the slot, sets the marks of its report NO, and locks a slot that held an unread
report and is ARMED or DONE. The lock of another slot is released first, and a trigger deferred there makes that slot
PENDING (shown outside RUN, where the round it opens grants nothing); without one it stays as it is, and a DONE slot
outstanding at the runner is offered to it. R63, R207: the items of a slot, an order and a report in their order, and
their codes. -/
def Obligations.ReadSlotReadsAndLocks : Prop :=
  (∀ (n : Byte) (k : SlotNo) (s : State), Listening s → MarksClear s → s.mode ≠ .resetting →
    let takes : Bool := (s.slot k).unread && ((s.slot k).state == .armed || (s.slot k).state == .done)
    let read := (s.slot k).report.map fun r => { r with unread := false, overwritten := false }
    (s.lock = none ∨ s.lock = some k →
      let l := if takes then some k else s.lock
      exec (.readSlot n k.val) s = .next
        (({ s with lock := l }.setSlot k { s.slot k with report := read }).placeReply
          (okReply n 0x11 (encSlot (s.slot k) (l == some k))))) ∧
    (∀ j : SlotNo, s.lock = some j → j ≠ k → (s.slot j).state = .armed → (s.slot j).deferred = true →
      s.mode ≠ .run →
      exec (.readSlot n k.val) s = .next
        ((({ s with lock := if takes then some k else none }.setSlot j
            { s.slot j with state := .pending, deferred := false }).setSlot k
            { s.slot k with report := read }).placeReply
          (okReply n 0x11 (encSlot (s.slot k) takes)))) ∧
    (∀ j : SlotNo, s.lock = some j → j ≠ k → ¬((s.slot j).state = .armed ∧ (s.slot j).deferred = true) →
      let offered : Bool := (s.slot j).state == .done && (s.slot j).owner == .sequence && s.runner.has j
      exec (.readSlot n k.val) s = .next
        (({ s with lock := if takes then some k else none,
                   runner := if offered then { s.runner with offers := s.runner.offers ++ [j] } else s.runner }.setSlot k
            { s.slot k with report := read }).placeReply
          (okReply n 0x11 (encSlot (s.slot k) takes))))) ∧
  (∀ (x : Slot) (l : Bool), encSlot x l =
    encU8 x.state.code ++ encU8 x.owner.code ++ encFlag l ++ encFlag x.deferred ++ encOpt encOrder x.order
      ++ encOpt (fun u : UnitNo => encU8 u.val) x.unit ++ encOpt encClock x.grantTime ++ encOpt encClock x.startTime
      ++ encOpt encReport x.report) ∧
  (∀ o : Order, encOrder o =
    encU8 o.kind.code ++ encU8 o.gate.val ++ encOpt encMm o.target ++ encU8 o.speed.code ++ encU8 o.priority
      ++ encU8 o.rule.code
      ++ encOpt (fun t : Trigger => encU8 (match t.kind with | some e => e.code | none => 7)
          ++ encU8 (match t.index with | some i => i.val | none => 8)) o.trigger
      ++ encU8 o.rep.code ++ encU16 o.tag) ∧
  (∀ r : Report, encReport r =
    encU8 r.outcome.code ++ encOpt (fun c : TripCause => encU8 c.index) r.cause ++ encOpt encMm r.finalL
      ++ encOpt encMm r.finalR ++ encOpt encClock r.startTime ++ encClock r.endTime
      ++ encOpt (fun u : UnitNo => encU8 u.val) r.unitUsed ++ encFlag r.unread ++ encFlag r.overwritten) ∧
  ([OrderKind.set, .stream, .level].map OrderKind.code = [0, 1, 2] ∧
    [Speed.slow, .normal, .fast].map Speed.code = [0, 1, 2] ∧
    [EnvRule.clamp, .refuse, .override].map EnvRule.code = [0, 1, 2] ∧ [Rep.once, .rearm].map Rep.code = [0, 1] ∧
    [Owner.host, .sequence].map Owner.code = [0, 1] ∧
    [EventKind.rise, .fall, .turnEbb, .turnFlood, .surge, .gaugeFault, .gaugeOk].map EventKind.code =
      [0, 1, 2, 3, 4, 5, 6] ∧
    [OrderOutcome.reached, .clamped, .envelope, .unsettled, .stopped, .cut, .starved, .tripped].map OrderOutcome.code =
      [0, 1, 2, 3, 4, 5, 6, 7])

/-- R65, R64: UNLOCK of the locked slot releases the lock; a deferred trigger makes the slot PENDING; UNLOCK of any other
slot has no effect beyond the reply. A DONE slot outstanding at the runner is offered to it as its lock is released. -/
def Obligations.UnlockReleasesLock : Prop :=
  ∀ (n : Byte) (k : SlotNo) (s : State), Listening s → MarksClear s → s.mode ≠ .resetting →
    (s.lock ≠ some k → exec (.unlock n k.val) s = .next (s.placeReply (okReply n 0x12 []))) ∧
    (s.lock = some k → (s.slot k).deferred = false → (s.slot k).owner = .host →
      exec (.unlock n k.val) s = .next ({ s with lock := none }.placeReply (okReply n 0x12 []))) ∧
    (s.lock = some k → (s.slot k).state = .armed → (s.slot k).deferred = true → s.mode ≠ .run →
      exec (.unlock n k.val) s = .next
        (({ s with lock := none }.setSlot k { s.slot k with state := .pending, deferred := false }).placeReply
          (okReply n 0x12 []))) ∧
    (s.lock = some k → (s.slot k).state = .done → (s.slot k).owner = .sequence → s.runner.has k = true →
      exec (.unlock n k.val) s = .next
        ({ s with lock := none, runner := { s.runner with offers := s.runner.offers ++ [k] } }.placeReply
          (okReply n 0x12 []))) ∧
    (s.lock = some k → (s.slot k).state = .armed → (s.slot k).deferred = true → s.mode = .run →
      ∃ t, exec (.unlock n k.val) s = .next t ∧ t.lock = none ∧ t.gates = s.gates ∧ (t.slot k).deferred = false ∧
        ((t.slot k).state = .pending ∨ (t.slot k).state = .granted))

/-- R68: a trigger matches an event when its kind is ANY or the event's, and its index is ANY or equal to an index the
event carries. R66, R69: in every mode but RESETTING, an event makes every ARMED slot it matches PENDING, or marks it
deferred if it is locked; every other slot stays, and in RESETTING all do. -/
def Obligations.TideEventsReleaseOrders : Prop :=
  (∀ (t : Trigger) (e : TideEvent),
    t.matches e = true ↔
      (t.kind = none ∨ t.kind = some e.kind) ∧ (t.index = none ∨ ∃ i, t.index = some i ∧ e.index = some i)) ∧
  (∀ (e : TideEvent) (s : State),
    let t := s.matchEvent e
    (s.mode = .resetting → t = s) ∧
    (s.mode ≠ .resetting → ∀ k : SlotNo,
      t.slot k =
        if (s.slot k).matches e then
          if s.lock = some k then { s.slot k with deferred := true }
          else { s.slot k with state := .pending, deferred := false }
        else s.slot k) ∧
    t.lock = s.lock ∧ t.gates = s.gates ∧ t.units = s.units ∧ t.runner = s.runner ∧ t.link = s.link ∧
      t.tide = s.tide)

/-! ### Gates: stops, trips, parking -/

/-- R41, R31: STOP_GATE takes a gate in RELEASING, BUILDING, TRAVEL, HELD or SETTLING to LOCKING with pending outcome
STOPPED (its pins not reading ENGAGED already); in LOCKING it makes the pending outcome STOPPED; an ABSENT or TRIPPED
gate, or a PARKED one with no grant, answers NOTHING_TO_STOP. R41, R60: STOP_GATE of a PARKED gate completes its GRANTED
slot STOPPED without a start time, and leaves the gate as it was. R87: the unit the slot had reserved is handed back, and
no other unit changes (no other slot waiting for a grant). -/
def Obligations.StopGateStops : Prop :=
  (∀ (n : Byte) (g : GateNo) (s : State), Listening s → MarksClear s → s.mode ≠ .resetting →
    ((s.gate g).state.moving = true → (s.gate g).state ≠ .locking → s.bothPins g .engaged = false →
      ∃ r, exec (.stopGate n g.val) s = .next ((s.setGate g r).placeReply (okReply n 0x15 [])) ∧
        EntersLocking (s.gate g) r ∧ r.move.outcome = some .stopped) ∧
    ((s.gate g).state = .locking →
      exec (.stopGate n g.val) s = .next
        ((s.setGate g { s.gate g with move := { (s.gate g).move with outcome := some .stopped } }).placeReply
          (okReply n 0x15 []))) ∧
    ((s.gate g).state = .absent ∨ (s.gate g).state = .tripped ∨
        (s.gate g).state = .parked ∧ s.grantedFor g = none →
      exec (.stopGate n g.val) s = .next (s.placeReply
        { number := n, kind := 0x15, status := .nothingToStop, detail := 0, data := [] }))) ∧
  (∀ (n : Byte) (g : GateNo) (k : SlotNo) (w : Order) (s : State), Listening s → MarksClear s → s.mode ≠ .resetting →
    (s.gate g).state = .parked → s.grantedFor g = some k → (s.slot k).order = some w →
    ∃ t, exec (.stopGate n g.val) s = .next t ∧ t.gates = s.gates ∧ t.tide = s.tide ∧
      (∀ j, j ≠ k → (s.slot j).state ≠ .pending → (s.slot j).state ≠ .granted → t.slot j = s.slot j) ∧
      t.slot k = { s.slot k with
        state := if w.rep = .once then .done else .armed, deferred := false, unit := none, grantTime := none,
        startTime := none,
        report := some { outcome := .stopped, cause := none, finalL := (s.gate g).endL.held,
                         finalR := (s.gate g).endR.held, startTime := none, endTime := s.clock, unitUsed := none,
                         unread := true, overwritten := (s.slot k).unread } } ∧
      (∀ u : UnitNo, (s.slot k).unit = some u → NoneWaits s →
        t.units = (abandons s u).units ∧ t.startQueue = (abandons s u).startQueue))

/-- R37: CLEAR_TRIP of a TRIPPED gate with both encoders GOOD and both pins ENGAGED parks it, discards the trip record and
sets the level-required mark when SKEW was among the causes and the skew still exceeds skew_trim; otherwise TRIP_PERSISTS,
NOT_TRIPPED or GATE_ABSENT, and nothing changes. -/
def Obligations.ClearTripParks : Prop :=
  ∀ (n : Byte) (g : GateNo) (s : State), Listening s → MarksClear s → s.mode ≠ .resetting →
    let r := s.gate g
    let refused := fun st : Status =>
      exec (.clearTrip n g.val) s = .next (s.placeReply { number := n, kind := 0x16, status := st, detail := 0, data := [] })
    (r.state = .absent → refused .gateAbsent) ∧
    (r.state ≠ .absent → r.state ≠ .tripped → refused .notTripped) ∧
    (r.state = .tripped → ¬(r.endL.status = .good ∧ r.endR.status = .good ∧ s.bothPins g .engaged = true) →
      refused .tripPersists) ∧
    (∀ (t : TripRec) (k : Int), r.state = .tripped → r.endL.status = .good → r.endR.status = .good →
      s.bothPins g .engaged = true → r.trip = some t → r.skew = some k →
      ∃ x, exec (.clearTrip n g.val) s = .next x ∧ (∀ h, h ≠ g → x.gate h = s.gate h) ∧
        x.gate g = { r with
          state := .parked, phase := none, trip := none,
          levelRequired := r.levelRequired ||
            ((t.first == .skew || hasCause t.further .skew) && decide (r.params.skewTrim < mag k)) })

/-- R33 to R35: a trip closes both valves, sets both pins to ENGAGE, stops the timers of the move, forms the trip
record, clears the move, and runs the lock timer unless both pins read ENGAGED already; no other gate changes. The
release, build, lock and stall timers trip with the cause and the end that R18, R19, R32 and R27 name. R33, R60, R87,
R102: GATE_TRIP is handed over first; a moving gate then completes its RUNNING slot TRIPPED with the cause, drops it under
the reset mark, and releases its unit to IDLE; a PARKED gate completes its GRANTED slot TRIPPED without a start time and
the grant is abandoned. That a timer that does not run changes nothing is a choice of the model (log 2). -/
def Obligations.TripsLeaveGateTripped : Prop :=
  (∀ (g : GateNo) (c : TripCause) (further : BitVec 7) (e : Concern) (s : State),
    let r := s.gate g
    let t := s.tripGate g c further e
    (∀ h, h ≠ g → t.gate h = s.gate h) ∧
      (t.gate g).state = .tripped ∧ (t.gate g).params = r.params ∧ (t.gate g).move = Move.empty ∧
      (t.gate g).levelRequired = r.levelRequired ∧
      (t.gate g).trip = some { first := c, further := further, concerned := e, time := s.clock } ∧
      (t.gate g).phase = (if s.bothPins g .engaged then none else some (.lock, r.params.lockTime * 100)) ∧
      (∀ x : HoistEnd, (t.gate g).hoist x = { r.hoist x with valve := .closed, pinCmd := .engage, stall := none }) ∧
      t.tide = s.tide ∧ t.clock = s.clock ∧ t.mode = s.mode) ∧
  (∀ (g : GateNo) (s : State), s.resetHeld = false → MarksClear s →
    let r := s.gate g
    (r.state = .releasing → r.runs .release = true →
      exec (.releaseTimerExpiry g) s = .next (s.tripGate g .lockPin 0
        (if s.pin g .l ≠ .withdrawn ∧ s.pin g .r = .withdrawn then .l
         else if s.pin g .l = .withdrawn ∧ s.pin g .r ≠ .withdrawn then .r else .both)).finish) ∧
    (r.state = .building → r.runs .build = true →
      exec (.buildTimerExpiry g) s = .next (s.tripGate g .pressure 0
        (if r.endL.built r.params.buildPressure = false ∧ r.endR.built r.params.buildPressure = true then .l
         else if r.endL.built r.params.buildPressure = true ∧ r.endR.built r.params.buildPressure = false then .r
         else .both)).finish) ∧
    (r.state = .locking → r.runs .lock = true →
      exec (.lockTimerExpiry g) s = .next (s.tripGate g .lockPin 0
        (if s.pin g .l ≠ .engaged ∧ s.pin g .r = .engaged then .l
         else if s.pin g .l = .engaged ∧ s.pin g .r ≠ .engaged then .r else .both)).finish) ∧
    (∀ x : HoistEnd, r.state = .travel → (r.hoist x).stall.isSome = true → (r.hoist x).valve.driven = true →
      exec (.stallTimerExpiry g x) s = .next (s.tripGate g .stall 0 (endConcern x)).finish) ∧
    (r.phase = none →
      exec (.releaseTimerExpiry g) s = .next s ∧ exec (.buildTimerExpiry g) s = .next s ∧
        exec (.lockTimerExpiry g) s = .next s ∧ exec (.settleTimerExpiry g) s = .next s ∧
        exec (.tripLockTimerExpiry g) s = .next s)) ∧
  (∀ (g : GateNo) (c : TripCause) (further : BitVec 7) (e : Concern) (k : SlotNo) (w : Order) (s : State),
    let r := s.gate g
    let t := s.tripGate g c further e
    let told := s.notify (.gateTrip g c e r.move.slot s.clock)
    let report := fun (start : Option Clock) (u : Option UnitNo) =>
      ({ outcome := .tripped, cause := some c, finalL := r.endL.held, finalR := r.endR.held, startTime := start,
         endTime := s.clock, unitUsed := u, unread := true, overwritten := (s.slot k).unread } : Report)
    (s.slot k).order = some w →
    (r.state ≠ .parked → r.move.slot = some k → (s.slot k).state = .running →
      (r.move.resetMark = false →
        let x := report (s.slot k).startTime (s.slot k).unit
        t.slot k = completedWith (s.slot k) w x ∧
          t.link = (told.notify (orderDoneNotice k (s.slot k) w x)).link) ∧
      (r.move.resetMark = true → t.slot k = Slot.empty ∧ t.link = told.link) ∧
      (∀ j, j ≠ k → t.slot j = s.slot j) ∧
      (∀ u : UnitNo, r.move.unit = some u → (s.unit u).state = .assigned →
        t.unit u = { s.unit u with state := .idle, slot := none, gate := none, cause := none,
                                   timer := some (.idle, (s.unit u).idleTime * 1000), pump := true, manifold := none } ∧
          (∀ v, v ≠ u → t.unit v = s.unit v) ∧ t.marks.roundDue = true)) ∧
    (r.state = .parked → s.grantedFor g = some k →
      t.slot k = completedWith (s.slot k) w (report none none) ∧ (∀ j, j ≠ k → t.slot j = s.slot j) ∧
        t.link = (told.notify (orderDoneNotice k (s.slot k) w (report none none))).link ∧
        (∀ u : UnitNo, (s.slot k).unit = some u →
          t.units = (abandons s u).units ∧ t.startQueue = (abandons s u).startQueue ∧ t.marks.roundDue = true)))

/-- R30, R160, R35: the settle timer takes SETTLING to LOCKING with UNSETTLED unless an outcome was pending, the hold timer
takes HELD to LOCKING with STARVED unless one was, and the lock timer of a TRIPPED gate adds LOCK_PIN to the further
causes (the pins not reading ENGAGED). -/
def Obligations.TimerExpiriesEndMove : Prop :=
  ∀ (g : GateNo) (s : State), s.resetHeld = false → MarksClear s → s.bothPins g .engaged = false →
    ((s.gate g).state = .settling → (s.gate g).runs .settle = true →
      ∃ r, exec (.settleTimerExpiry g) s = .next (s.setGate g r) ∧ EntersLocking (s.gate g) r ∧
        r.move.outcome = some ((s.gate g).move.outcome.getD .unsettled)) ∧
    ((s.gate g).state = .held → (s.gate g).move.hold.isSome = true →
      ∃ r, exec (.holdTimerExpiry g) s = .next (s.setGate g r) ∧ EntersLocking (s.gate g) r ∧
        r.move.outcome = some ((s.gate g).move.outcome.getD .starved)) ∧
    ((s.gate g).state = .tripped → (s.gate g).runs .lock = true →
      exec (.tripLockTimerExpiry g) s = .next (s.setGate g { s.gate g with
        phase := none,
        trip := (s.gate g).trip.map fun t => { t with further := t.further ||| 0b0000010#7 } }))

/-- R18, R20, R35: the last pin to read WITHDRAWN takes RELEASING to BUILDING; a pin that leaves WITHDRAWN trips a gate
in BUILDING, TRAVEL, HELD or SETTLING; the last pin to read ENGAGED stops the lock timer of a TRIPPED gate; a level that
completes nothing is only recorded. That a level given again changes nothing is a choice of the model (log 20). -/
def Obligations.PinFeedbackActs : Prop :=
  ∀ (g : GateNo) (ch : Channel) (p : PinPos) (s : State), s.resetHeld = false → MarksClear s →
    let r := s.gate g
    let s' := s.setPinInput g ((s.pinInput g).put ch p)
    ((s.pinInput g).level ch = p → exec (.lockPinFeedback g ch p) s = .next s) ∧
    ((s.pinInput g).level ch ≠ p →
      (r.state = .absent ∨ r.state = .parked → exec (.lockPinFeedback g ch p) s = .next s') ∧
      (r.state = .releasing → s'.bothPins g .withdrawn = false → exec (.lockPinFeedback g ch p) s = .next s') ∧
      (r.state = .releasing → s'.bothPins g .withdrawn = true →
        ∃ r', exec (.lockPinFeedback g ch p) s = .next (s'.setGate g r') ∧ r'.state = .building ∧
          r'.phase = some (.build, r.params.buildSteps * 50) ∧ r'.move = r.move ∧ r'.params = r.params ∧
          (∀ e : HoistEnd, r'.hoist e = { r.hoist e with valve := .build, fresh := false })) ∧
      (r.state = .building ∨ r.state = .travel ∨ r.state = .held ∨ r.state = .settling → p ≠ .withdrawn →
        exec (.lockPinFeedback g ch p) s =
          .next (s'.tripGate g .lockPin 0 (endConcern (r.params.swap.endOf ch))).finish) ∧
      (r.state = .building ∨ r.state = .travel ∨ r.state = .held ∨ r.state = .settling → p = .withdrawn →
        exec (.lockPinFeedback g ch p) s = .next s') ∧
      (r.state = .locking ∨ r.state = .tripped → s'.bothPins g .engaged = false →
        exec (.lockPinFeedback g ch p) s = .next s') ∧
      (r.state = .tripped → s'.bothPins g .engaged = true →
        exec (.lockPinFeedback g ch p) s = .next (s'.setGate g { r with phase := none })))

/-- R31, R33, R58, R102: the last pin to read ENGAGED in LOCKING parks the gate, completes its RUNNING slot with the
pending outcome, releases its unit and clears the move; a levelled gate loses the level-required mark (R38). In every
mode, a ONCE order leaves its slot DONE and a REARM order ARMED, with ORDER_DONE (R59, R62); the report of no RUNNING slot
(R73) and the round that the release opens are taken at the event's end. -/
def Obligations.LastPinParks : Prop :=
  (∀ (g : GateNo) (ch : Channel) (s : State), s.resetHeld = false → MarksClear s → (s.gate g).state = .locking →
    (s.pinInput g).level ch ≠ .engaged →
    (s.setPinInput g ((s.pinInput g).put ch .engaged)).bothPins g .engaged = true →
    let r := s.gate g
    ∃ t, exec (.lockPinFeedback g ch .engaged) s = .next t ∧
      t.gate g = { r with
        state := .parked, phase := none, move := Move.empty,
        levelRequired := r.levelRequired && !(r.kind == some .level && r.move.outcome == some .reached) } ∧
      (∀ h, h ≠ g → t.gate h = s.gate h) ∧
      (∀ (k : SlotNo) (w : Order) (o : OrderOutcome), r.move.slot = some k → r.move.resetMark = false →
        r.move.outcome = some o → (s.slot k).state = .running → (s.slot k).order = some w → w.rep = .once →
        (t.slot k).state = .done ∧ (t.slot k).report = some
          { outcome := o, cause := none, finalL := r.endL.held, finalR := r.endR.held,
            startTime := (s.slot k).startTime, endTime := s.clock, unitUsed := (s.slot k).unit, unread := true,
            overwritten := (s.slot k).unread }) ∧
      (∀ u : UnitNo, s.mode ≠ .run → r.move.unit = some u → (s.unit u).state = .assigned →
        (t.unit u).state = .idle ∧ (t.unit u).manifold = none)) ∧
  (∀ (g : GateNo) (ch : Channel) (k : SlotNo) (w : Order) (o : OrderOutcome) (s : State), s.resetHeld = false →
    MarksClear s → (s.gate g).state = .locking → (s.pinInput g).level ch ≠ .engaged →
    (s.setPinInput g ((s.pinInput g).put ch .engaged)).bothPins g .engaged = true →
    let r := s.gate g
    r.move.slot = some k → r.move.resetMark = false → r.move.outcome = some o → (s.slot k).state = .running →
    (s.slot k).order = some w →
    let parked := (s.setPinInput g ((s.pinInput g).put ch .engaged)).setGate g { r with
      state := .parked, phase := none, move := Move.empty,
      levelRequired := r.levelRequired && !(r.kind == some .level && r.move.outcome == some .reached) }
    let done := completes parked k w
      { outcome := o, cause := none, finalL := r.endL.held, finalR := r.endR.held, startTime := (s.slot k).startTime,
        endTime := s.clock, unitUsed := (s.slot k).unit, unread := true, overwritten := (s.slot k).unread }
    ((∃ j, j ≠ k ∧ (s.slot j).state = .running) →
      exec (.lockPinFeedback g ch .engaged) s = .next (releases done r.move.unit).finish) ∧
    ((∀ j, j ≠ k → (s.slot j).state ≠ .running) →
      exec (.lockPinFeedback g ch .engaged) s = .next (releases (done.markReport true) r.move.unit).finish))

/-! ### Encoder samples -/

/-- R4: the opening of an end is the signed difference of count and zero count under the end's direction, times 10, divided
by the scale with any fraction discarded toward zero. -/
def Obligations.OpeningConversion : Prop :=
  ∀ (zeroCount scale count : Nat), scale ≠ 0 →
    let d : Int := (count : Int) - (zeroCount : Int)
    openingOf .upCounts zeroCount scale count = (if 0 ≤ d then (d * 10) / scale else -((-d * 10) / scale)) ∧
      openingOf .downCounts zeroCount scale count = (if 0 ≤ d then -((d * 10) / scale) else (-d * 10) / scale) ∧
      (scale = 100 → count = zeroCount + 25000 → openingOf .upCounts zeroCount scale count = 2500)

/-- R6, R7, R9: what a sample leaves at its end while the gate makes no motion decision from it: the first sample makes
an UNKNOWN end GOOD, a GOOD end accepts a sample that passes both tests, a FAULTED end counts consistent samples and is
GOOD at the fourth. R7, R8, R10: a sample that fails a test of a GOOD end, and the silence of an end, make it FAULTED; a
gate that is neither ABSENT nor TRIPPED trips with ENCODER at that end, a TRIPPED one gains ENCODER among its further
causes. That a sample is in time when the silence timer runs and at most 250 ms have elapsed is a choice of the model
(log 3). -/
def Obligations.EncoderJudgesSamples : Prop :=
  (∀ (g : GateNo) (ch : Channel) (count pressure elapsed : Nat) (s : State), s.resetHeld = false → MarksClear s →
    let r := s.gate g
    let e := r.params.swap.endOf ch
    let x := r.params.opening e count
    let h := r.hoist e
    let base := { h with silence := some 250, pressure := some pressure, reference := some x }
    let leaves := fun h' : EndRec => exec (.encoderSample g ch count pressure elapsed) s =
      .next (s.setGate g (r.modEnd e fun _ => h'))
    (r.state = .absent → exec (.encoderSample g ch count pressure elapsed) s = .next s) ∧
    (r.state = .parked ∨ r.state = .releasing ∨ r.state = .locking ∨ r.state = .tripped →
      (h.status = .unknown → leaves { base with status := .good, held := some x, recovery := 0 }) ∧
      (passesTests h x elapsed → leaves { base with held := some x }) ∧
      (h.status = .faulted → consistentWithLast h x elapsed →
        leaves (if 4 ≤ h.recovery + 1 then { base with status := .good, held := some x, recovery := 0 }
          else { base with recovery := h.recovery + 1 })) ∧
      (h.status = .faulted → ¬consistentWithLast h x elapsed → leaves { base with recovery := 0 }))) ∧
  (∀ (g : GateNo) (s : State), s.resetHeld = false → MarksClear s → (s.gate g).state ≠ .absent →
    (∀ (ch : Channel) (count pressure elapsed : Nat),
      let e := (s.gate g).params.swap.endOf ch
      let x := (s.gate g).params.opening e count
      let s' := s.setGate g ((s.gate g).modEnd e fun h =>
        { h with silence := some 250, pressure := some pressure, reference := some x, status := .faulted,
                 recovery := 0 })
      ((s.gate g).hoist e).status = .good → ¬passesTests ((s.gate g).hoist e) x elapsed →
      exec (.encoderSample g ch count pressure elapsed) s = .next
        (if (s.gate g).state = .tripped then s'.modGate g fun r => r.addFurther .encoder
         else (s'.tripGate g .encoder 0 (endConcern e)).finish)) ∧
    (∀ e : HoistEnd, ((s.gate g).hoist e).silence.isSome = true →
      let s' := s.setGate g ((s.gate g).modEnd e fun h =>
        { h with silence := none, status := .faulted, recovery := 0 })
      exec (.encoderSilenceExpiry g e) s = .next
        (if ((s.gate g).hoist e).status = .faulted then s'
         else if (s.gate g).state = .tripped then s'.modGate g fun r => r.addFurther .encoder
         else (s'.tripGate g .encoder 0 (endConcern e)).finish)))

/-- R25, R22 to R24, R27: an accepted sample in TRAVEL under a SET order. An end outside the overtravel limits trips the
gate with OVERTRAVEL at that end or at BOTH, with SKEW further where the skew fails too; a skew above skew_trip alone trips
it with SKEW at the higher end; a reached target closes both valves, stops their stall timers and begins SETTLING;
otherwise both valves drive toward the target, SLOW inside approach (no skew past skew_trim and no trim end). A stall timer
starts afresh where a valve begins to drive and where its end has moved 2 mm, and runs on elsewhere. R39, R40: under a
LEVEL order the skew is held against the entry skew plus deadband and trips at the driven end, and the driven end alone
is driven, to its own reach. -/
def Obligations.TravelSampleDrives : Prop :=
  (∀ (g : GateNo) (ch : Channel) (count pressure elapsed : Nat) (o : RunOrder) (c t k : Int) (s : State),
    s.resetHeld = false → MarksClear s →
    let r := s.gate g
    let e := r.params.swap.endOf ch
    let x := r.params.opening e count
    let r1 := accepts r e x pressure
    r.state = .travel → r.move.order = some o → o.kind = .set → passesTests (r.hoist e) x elapsed →
    r1.opening = some c → r1.skew = some k → r.move.target = some t →
    let beyond := fun y : HoistEnd => ∃ h, (r1.hoist y).held = some h ∧ (h < -20 ∨ r.params.openingMax + 20 < h)
    let overtravels := fun c : Concern => exec (.encoderSample g ch count pressure elapsed) s = .next
      ((s.setGate g (r1.modEnd e EndRec.watch)).tripGate g .overtravel
        (if r.params.skewTrip < mag k then 0b0010000 else 0) c).finish
    (beyond .l → ¬beyond .r → overtravels .l) ∧ (¬beyond .l → beyond .r → overtravels .r) ∧
    (beyond .l → beyond .r → overtravels .both) ∧
    (r1.endL.overtravel r.params.openingMax = false → r1.endR.overtravel r.params.openingMax = false →
      r.params.skewTrip < mag k →
      exec (.encoderSample g ch count pressure elapsed) s = .next
        ((s.setGate g (r1.modEnd e EndRec.watch)).tripGate g .skew 0 (if k < 0 then .r else .l)).finish) ∧
    (r1.travelTrip = none → mag (c - t) ≤ r.params.deadband →
      ∃ r', exec (.encoderSample g ch count pressure elapsed) s = .next (s.setGate g r') ∧ r'.state = .settling ∧
        r'.phase = some (.settle, 20000) ∧ r'.move = { r.move with trimEnd := none, quiet := 0 } ∧
        (∀ y : HoistEnd, (r'.hoist y).valve = .closed ∧ (r'.hoist y).stall = none ∧
          (r'.hoist y).held = (r1.hoist y).held)) ∧
    (r1.travelTrip = none → r.params.deadband < mag (c - t) → r.move.trimEnd = none → mag k ≤ r.params.skewTrim →
      ∃ r', exec (.encoderSample g ch count pressure elapsed) s = .next (s.setGate g r') ∧ r'.state = .travel ∧
        r'.move = r.move ∧
        (∀ y : HoistEnd, (r'.hoist y).held = (r1.hoist y).held ∧ (r'.hoist y).valve =
          let rate := if mag (t - c) < r.params.approach then 2 else
            match o.speed with
            | .slow => 2
            | .normal => 5
            | .fast => 8
          if c < t then .raise rate else .lower rate) ∧
        (∀ y : HoistEnd,
          let h := r.hoist y
          let moved := y = e ∧ h.valve.driven = true ∧ 2 ≤ mag (x - h.stallRef)
          (r'.hoist y).stall = (if h.valve.driven = false ∨ moved then some 2000 else h.stall) ∧
          (r'.hoist y).stallRef =
            (if h.valve.driven = false then (r1.hoist y).held.getD h.stallRef
             else if moved then x else h.stallRef)))) ∧
  (∀ (g : GateNo) (ch : Channel) (count pressure elapsed : Nat) (o : RunOrder) (d : HoistEnd) (a t k n : Int) (s : State),
    s.resetHeld = false → MarksClear s →
    let r := s.gate g
    let e := r.params.swap.endOf ch
    let x := r.params.opening e count
    let r1 := accepts r e x pressure
    r.state = .travel → r.move.order = some o → o.kind = .level → passesTests (r.hoist e) x elapsed →
    r1.skew = some k → r.move.drivenEnd = some d → (r1.hoist d).held = some a → r.move.target = some t →
    r.move.entrySkew = some n →
    (r1.endL.overtravel r.params.openingMax = false → r1.endR.overtravel r.params.openingMax = false →
      n + r.params.deadband < mag k →
      exec (.encoderSample g ch count pressure elapsed) s = .next
        ((s.setGate g (r1.modEnd e EndRec.watch)).tripGate g .skew 0 (endConcern d)).finish) ∧
    (r1.travelTrip = none → mag (a - t) ≤ r.params.deadband →
      exec (.encoderSample g ch count pressure elapsed) s =
        .next (s.setGate g (settlingRecord (r1.modEnd e EndRec.watch)))) ∧
    (r1.travelTrip = none → r.params.deadband < mag (a - t) → r.move.trimEnd = none →
      ∃ r', exec (.encoderSample g ch count pressure elapsed) s = .next (s.setGate g r') ∧ r'.state = .travel ∧
        r'.move = r.move ∧ (∀ y, y ≠ d → (r'.hoist y).valve = .closed) ∧ (r'.hoist d).valve =
          let rate := if mag (t - a) < r.params.approach then 2 else
            match o.speed with
            | .slow => 2
            | .normal => 5
            | .fast => 8
          if a < t then .raise rate else .lower rate))

/-- R26: under a SET order past the reach test, a skew above skew_trim records the leading end as trim end, which is
CLOSED while the other end is driven; at half of skew_trim or less a recorded trim end is cleared and both are driven. -/
def Obligations.SkewTrimHoldsLeadingEnd : Prop :=
  ∀ (g : GateNo) (ch : Channel) (count pressure elapsed : Nat) (o : RunOrder) (c t k : Int) (s : State),
    s.resetHeld = false → MarksClear s →
    let r := s.gate g
    let e := r.params.swap.endOf ch
    let x := r.params.opening e count
    let r1 := accepts r e x pressure
    r.state = .travel → r.move.order = some o → o.kind = .set → passesTests (r.hoist e) x elapsed →
    r1.opening = some c → r1.skew = some k → r.move.target = some t → r1.travelTrip = none →
    r.params.deadband < mag (c - t) → 0 ≤ r.params.skewTrim →
    (r.move.trimEnd = none → r.params.skewTrim < mag k →
      let lead : HoistEnd := if c < t then (if 0 < k then .l else .r) else (if 0 < k then .r else .l)
      ∃ r', exec (.encoderSample g ch count pressure elapsed) s = .next (s.setGate g r') ∧ r'.state = .travel ∧
        r'.move = { r.move with trimEnd := some lead } ∧ (r'.hoist lead).valve = .closed ∧
        (∀ y, y ≠ lead → (r'.hoist y).valve.driven = true)) ∧
    (r.move.trimEnd.isSome = true → mag k ≤ r.params.skewTrim.tdiv 2 →
      ∃ r', exec (.encoderSample g ch count pressure elapsed) s = .next (s.setGate g r') ∧ r'.state = .travel ∧
        r'.move = { r.move with trimEnd := none } ∧ (∀ y : HoistEnd, (r'.hoist y).valve.driven = true))

/-- R29: in SETTLING an accepted sample is quiet when both openings lie within deadband of the target. A quiet one counts,
another sets the count to 0, and the last of quiet_count takes the gate to LOCKING with REACHED or CLAMPED unless an
outcome is pending (skew below skew_trip, pins not ENGAGED). R23, R43: under a SET or STREAM order, in SETTLING and
in HELD, an accepted sample with a skew above skew_trip trips the gate with SKEW at the higher end, and in HELD any other
accepted sample only updates the record of its end. R40: under a LEVEL order in SETTLING the limit is the entry skew plus deadband and the end concerned the
driven end. That in SETTLING the skew is checked before the quiet count, so that a sample which would complete the count
trips, is a choice of the model (log 31). -/
def Obligations.SettlingCountsQuietSamples : Prop :=
  (∀ (g : GateNo) (ch : Channel) (count pressure elapsed : Nat) (s : State), s.resetHeld = false → MarksClear s →
    let r := s.gate g
    let e := r.params.swap.endOf ch
    let x := r.params.opening e count
    let r1 := accepts r e x pressure
    r.state = .settling → passesTests (r.hoist e) x elapsed → r1.skewTripped = false →
    (r1.isQuiet = false → exec (.encoderSample g ch count pressure elapsed) s =
      .next (s.setGate g { r1 with move := { r.move with quiet := 0 } })) ∧
    (r1.isQuiet = true → r.move.quiet + 1 < r.params.quietCount →
      exec (.encoderSample g ch count pressure elapsed) s =
        .next (s.setGate g { r1 with move := { r.move with quiet := r.move.quiet + 1 } })) ∧
    (r1.isQuiet = true → r.params.quietCount ≤ r.move.quiet + 1 → s.bothPins g .engaged = false →
      ∃ r', exec (.encoderSample g ch count pressure elapsed) s = .next (s.setGate g r') ∧
        EntersLocking { r1 with move := { r.move with quiet := r.move.quiet + 1 } } r' ∧
        r'.move.outcome = some (r.move.outcome.getD (if r.move.clamped then .clamped else .reached)))) ∧
  (∀ (g : GateNo) (ch : Channel) (count pressure elapsed : Nat) (o : RunOrder) (k : Int) (s : State),
    s.resetHeld = false → MarksClear s →
    let r := s.gate g
    let e := r.params.swap.endOf ch
    let x := r.params.opening e count
    let r1 := accepts r e x pressure
    passesTests (r.hoist e) x elapsed → r.move.order = some o → r1.skew = some k →
    (r.state = .settling ∨ r.state = .held → o.kind ≠ .level → r.params.skewTrip < mag k →
      exec (.encoderSample g ch count pressure elapsed) s =
        .next ((s.setGate g r1).tripGate g .skew 0 (if k < 0 then .r else .l)).finish) ∧
    (r.state = .held → o.kind ≠ .level → mag k ≤ r.params.skewTrip →
      exec (.encoderSample g ch count pressure elapsed) s = .next (s.setGate g r1)) ∧
    (∀ (entry : Int) (y : HoistEnd), r.state = .settling → o.kind = .level → r.move.entrySkew = some entry →
      r.move.drivenEnd = some y → entry + r.params.deadband < mag k →
      exec (.encoderSample g ch count pressure elapsed) s =
        .next ((s.setGate g r1).tripGate g .skew 0 (endConcern y)).finish))

/-- R19, R21: in BUILDING a sample sets its end's fresh mark; with both ends fresh at build_pressure the gate enters TRAVEL,
a SET order's target limited to 0 to opening_max and, where the envelope does not limit it and nothing trips or is reached,
driven toward: both ends, whatever the skew against skew_trim, which is this model's choice (logs 13 and 22). R39: under
a LEVEL order the driven end is the higher one, L where they are equal, the target the other end's opening, and the driven
end alone is driven. R155, R158: under a STREAM order the cut mark takes the gate to LOCKING with outcome CUT, an empty
queue to HELD with its notice, and a queue with points is popped before the entry's checks. -/
def Obligations.BuildEndsInTravel : Prop :=
  ∀ (g : GateNo) (ch : Channel) (count pressure elapsed : Nat) (s : State), s.resetHeld = false → MarksClear s →
    let r := s.gate g
    let e := r.params.swap.endOf ch
    let x := r.params.opening e count
    let r1 := (accepts r e x pressure).modEnd e fun h => { h with fresh := true }
    let built := r1.endL.built r.params.buildPressure && r1.endR.built r.params.buildPressure
    r.state = .building → passesTests (r.hoist e) x elapsed →
    (built = false → exec (.encoderSample g ch count pressure elapsed) s = .next (s.setGate g r1)) ∧
    (∀ (o : RunOrder) (w c : Int), built = true → r.move.order = some o → o.kind = .set →
      r.move.orderTarget = some w → r1.opening = some c →
      let t := max 0 (min w r.params.openingMax)
      let r2 := { r1 with move := { r.move with target := some t } }
      limitedTarget .set o.rule c (s.ceiling g) t = none → r2.travelTrip = none →
      r.params.deadband < mag (c - t) → r.move.trimEnd = none →
      ∃ r', exec (.encoderSample g ch count pressure elapsed) s = .next (s.setGate g r') ∧ r'.state = .travel ∧
        r'.phase = none ∧
        r'.move = { r.move with hold := none, target := some t,
                                clamped := r.move.clamped || decide (r.params.openingMax < w) } ∧
        (∀ y : HoistEnd, (r'.hoist y).valve.driven = true)) ∧
    (∀ (o : RunOrder) (l a : Int), built = true → r.move.order = some o → o.kind = .level → r1.endL.held = some l →
      r1.endR.held = some a →
      let d : HoistEnd := if l < a then .r else .l
      let t := max 0 (min (min l a) r.params.openingMax)
      let r2 := { r1 with move := { r.move with hold := none, drivenEnd := some d, target := some t,
                                                entrySkew := some (mag (l - a)) } }
      r2.travelTrip = none → r.params.deadband < mag (max l a - t) → r.move.trimEnd = none →
      ∃ r', exec (.encoderSample g ch count pressure elapsed) s = .next (s.setGate g r') ∧ r'.state = .travel ∧
        r'.phase = none ∧ r'.move = r2.move ∧ (r'.hoist d).valve.driven = true ∧
        (∀ y, y ≠ d → (r'.hoist y).valve = .closed)) ∧
    (∀ o : RunOrder, built = true → r.move.order = some o → o.kind = .stream →
      let r2 := { r1 with state := .travel, phase := none, move := { r.move with hold := none } }
      (r.move.cut = true → s.bothPins g .engaged = false →
        ∃ r', exec (.encoderSample g ch count pressure elapsed) s = .next (s.setGate g r') ∧ EntersLocking r2 r' ∧
          r'.move.outcome = some (r.move.outcome.getD .cut)) ∧
      (r.move.cut = false → r.move.final = false → (s.queue g).points = [] →
        exec (.encoderSample g ch count pressure elapsed) s = .next
          ((s.setGate g (heldRecord r2 (s.queue g).holdTime)).notify
            (.streamHeld g (r.move.slot.getD 0) r.move.target (r1.opening.getD 0) s.clock))) ∧
      (r.move.cut = false → r.move.final = false → (s.queue g).points ≠ [] →
        exec (.encoderSample g ch count pressure elapsed) s =
          .next (((s.setGate g r2).pop g).travelEntry g).finish))

/-! ### Grants and power units -/

/-- R82: with mode PRIORITY the winner is an eligible slot of the lowest priority value, the lowest number among equals;
with SLOT_ORDER the lowest eligible number; there is none just where no slot is eligible. R83: the winner's unit is a
free unit that its gate permits, an IDLE one before an OFF one, then the lowest number; there is none just where no free
unit is permitted. -/
def Obligations.GrantChoiceRule : Prop :=
  (∀ s : State,
    (s.winner = none ↔ ∀ k, s.eligible k = false) ∧
    (∀ k, s.winner = some k → s.eligible k = true ∧
      (s.arbitration = .priority → ∀ j, s.eligible j = true →
        (s.slot k).priority < (s.slot j).priority ∨ (s.slot k).priority = (s.slot j).priority ∧ k ≤ j) ∧
      (s.arbitration = .slotOrder → ∀ j, s.eligible j = true → k ≤ j))) ∧
  (∀ (s : State) (g : GateNo) (u : UnitNo), s.chooseUnit g = some u →
    s.unitFree u = true ∧ (s.gate g).params.permits u = true ∧
      (∀ v, s.unitFree v = true → (s.gate g).params.permits v = true →
        ((s.unit u).state ≠ .idle → (s.unit v).state ≠ .idle) ∧
        ((s.unit u).state = (s.unit v).state → u ≤ v))) ∧
  (∀ (s : State) (g : GateNo),
    s.chooseUnit g = none ↔ ∀ u, ¬(s.unitFree u = true ∧ (s.gate g).params.permits u = true))

/-- R79, R84, R53, R96: in RUN, posting the one order of an empty table for a PARKED gate without the level-required mark,
with a free unit permitted, grants it at once: GRANTED with its unit and grant time, an IDLE unit LINING_UP to the gate.
R95, R97: an OFF unit enters STARTING, or START_QUEUED at the back of the queue while another is STARTING; with its fault
input ASSERTED it goes OUT_OF_SERVICE and the slot is PENDING again (no other unit being permitted). -/
def Obligations.RoundGrantsSoleOrder : Prop :=
  ∀ (n : Byte) (k : SlotNo) (g : GateNo) (u : UnitNo) (f : RawOrder) (s : State), Listening s → MarksClear s →
    s.mode = .run → (∀ j, s.slot j = Slot.empty) → s.lock = none → firstBad (orderChecks k.val f) = none →
    f.gate = g.val → f.triggerPresence = 0 → (s.gate g).state = .parked → (s.gate g).levelRequired = false →
    ¬(f.kind = 0 ∧ (s.gate g).params.openingMax < f.target) →
    ¬(f.rule = 2 ∧ (s.gate g).params.overrideAllowed = false) →
    s.chooseUnit g = some u →
    let granted := s.setSlot k { Slot.empty with state := .granted, order := some (orderOf f g), unit := some u,
                                                 grantTime := some s.clock }
    ((s.unit u).state = .idle →
      exec (.postOrder n k.val f) s = .next
        ((granted.setUnit u
          { s.unit u with state := .liningUp, slot := some k, gate := some g, cause := none,
                          timer := some (.lineUp, 5000), pump := true, manifold := some g }).placeReply
          (okReply n 0x0F []))) ∧
    ((s.unit u).state = .off → (s.unitInput u).fault = false → (∀ v, (s.unit v).state ≠ .starting) →
      exec (.postOrder n k.val f) s = .next
        ((granted.setUnit u
          { s.unit u with state := .starting, slot := some k, gate := some g, cause := none,
                          timer := some (.start, 10000), pump := true, manifold := none }).placeReply
          (okReply n 0x0F []))) ∧
    ((s.unit u).state = .off → (s.unitInput u).fault = false → (∃ v, (s.unit v).state = .starting) →
      exec (.postOrder n k.val f) s = .next
        (({ granted with startQueue := s.startQueue ++ [u] }.setUnit u
          { s.unit u with state := .startQueued, slot := some k, gate := some g, cause := none, timer := none,
                          pump := false, manifold := none }).placeReply (okReply n 0x0F []))) ∧
    ((s.unit u).state = .off → (s.unitInput u).fault = true → s.startQueue = [] →
      (∀ v, v ≠ u → (s.gate g).params.permits v = false) →
      exec (.postOrder n k.val f) s = .next
        ((goesOut (s.setSlot k { Slot.empty with state := .pending, order := some (orderOf f g) }) u .fault).reply
          s.link.line.isNone (okReply n 0x0F [])))

/-- R98, R100, R95: ready feedback of a STARTING unit with a reservation lines it up to the gate; without one it is IDLE and
a round opens. With an empty start queue no other unit changes; else the starter passes to the head of the queue, which
enters STARTING, or with its fault input ASSERTED goes OUT_OF_SERVICE and its slot is returned (R97). -/
def Obligations.ReadyEndsStart : Prop :=
  ∀ (u : UnitNo) (s : State), s.resetHeld = false → MarksClear s → (s.unitInput u).ready = false →
    let s' := s.setUnitInput u { s.unitInput u with ready := true }
    ((s.unit u).state ≠ .starting → exec (.readyChange u true) s = .next s') ∧
    (∀ (k : SlotNo) (g : GateNo), (s.unit u).state = .starting → s.startQueue = [] → (s.unit u).slot = some k →
      (s.unit u).gate = some g →
      exec (.readyChange u true) s = .next (s'.setUnit u
        { s.unit u with state := .liningUp, slot := some k, gate := some g, cause := none,
                        timer := some (.lineUp, 5000), pump := true, manifold := some g })) ∧
    ((s.unit u).state = .starting → s.startQueue = [] → (s.unit u).slot = none → s.mode ≠ .run →
      exec (.readyChange u true) s = .next (s'.setUnit u
        { s.unit u with state := .idle, slot := none, gate := none, cause := none,
                        timer := some (.idle, (s.unit u).idleTime * 1000), pump := true, manifold := none })) ∧
    (∀ (v : UnitNo) (rest : List UnitNo), (s.unit u).state = .starting → s.startQueue = v :: rest → v ≠ u →
      (∀ (k : SlotNo) (g : GateNo), (s.unit u).slot = some k → (s.unit u).gate = some g →
        let lining := s'.setUnit u
          { s.unit u with state := .liningUp, slot := some k, gate := some g, cause := none,
                          timer := some (.lineUp, 5000), pump := true, manifold := some g }
        ((s.unitInput v).fault = false → exec (.readyChange u true) s = .next (startsNext lining v rest)) ∧
        ((s.unitInput v).fault = true → rest = [] →
          exec (.readyChange u true) s = .next
            (reservationReturned { goesOut lining v .fault with startQueue := [] } (s.unit v).slot).finish)) ∧
      ((s.unit u).slot = none → (s.unitInput v).fault = false →
        exec (.readyChange u true) s = .next (startsNext (s'.setUnit u
          { s.unit u with state := .idle, slot := none, gate := none, cause := none,
                          timer := some (.idle, (s.unit u).idleTime * 1000), pump := true, manifold := none }) v
          rest).openRound.finish))

/-- R54, R17, R100: the manifold of a LINING_UP unit reports lined up: the unit is ASSIGNED, a SET order that the
envelope does not limit is RUNNING from now, and its gate is RELEASING (pins not WITHDRAWN already) with the target of
the order. R55, R135: at line-up a SET order under REFUSE that the envelope limits completes ENVELOPE without a move,
with the line-up as its start time and ORDER_DONE, its unit is released to IDLE, and the round that this opens is taken at
the event's end. A STREAM or LEVEL order is not limited at line-up, and a SET order under CLAMP runs to its limit with the
clamped mark. R94, R100: any other change of the lined-up input is only recorded; that it is recorded while the reset line
is held too is a choice of the model (log 4). -/
def Obligations.LineUpStartsOrRefuses : Prop :=
  (∀ (u : UnitNo) (k : SlotNo) (g : GateNo) (o : Order) (t x : Int) (s : State), s.resetHeld = false → MarksClear s →
    (s.unitInput u).lined = false → (s.unit u).state = .liningUp → (s.unit u).slot = some k →
    (s.unit u).gate = some g → (s.slot k).state = .granted → (s.slot k).order = some o → o.gate = g →
    o.kind = .set → o.target = some t → (s.gate g).opening = some x →
    limitedTarget .set o.rule x (s.ceiling g) t = none → s.bothPins g .withdrawn = false →
    ∃ r, exec (.linedUpChange u true) s = .next
        ((((s.setUnitInput u { s.unitInput u with lined := true }).setUnit u
          { s.unit u with state := .assigned, slot := none, gate := some g, cause := none, timer := none, pump := true,
                          manifold := some g }).setSlot k
          { s.slot k with state := .running, startTime := some s.clock }).setGate g r) ∧
      r.state = .releasing ∧ r.phase = some (.release, (s.gate g).params.releaseTime * 100) ∧
      r.params = (s.gate g).params ∧ r.levelRequired = (s.gate g).levelRequired ∧
      (∀ e : HoistEnd, r.hoist e =
        { (s.gate g).hoist e with valve := .closed, pinCmd := .withdraw, stall := none }) ∧
      r.move = { Move.empty with slot := some k, unit := some u, orderTarget := some t,
                                 order := some { kind := .set, speed := o.speed, rule := o.rule } }) ∧
  (∀ (u : UnitNo) (k : SlotNo) (g : GateNo) (o : Order) (w : Option Int) (reduced : Bool) (s : State),
    s.resetHeld = false → MarksClear s → (s.unitInput u).lined = false → (s.unit u).state = .liningUp →
    (s.unit u).slot = some k → (s.unit u).gate = some g → (s.slot k).state = .granted → (s.slot k).order = some o →
    o.gate = g → s.bothPins g .withdrawn = false →
    (o.kind ≠ .set ∧ w = none ∧ reduced = false ∨
      o.kind = .set ∧ o.rule = .clamp ∧ reduced = true ∧ ∃ t x v : Int, o.target = some t ∧ (s.gate g).opening = some x ∧
        limitedTarget .set .clamp x (s.ceiling g) t = some v ∧ w = some v) →
    ∃ r, exec (.linedUpChange u true) s = .next
        ((((s.setUnitInput u { s.unitInput u with lined := true }).setUnit u
          { s.unit u with state := .assigned, slot := none, gate := some g, cause := none, timer := none, pump := true,
                          manifold := some g }).setSlot k
          { s.slot k with state := .running, startTime := some s.clock }).setGate g r) ∧
      r.state = .releasing ∧
      r.move = { Move.empty with slot := some k, unit := some u, orderTarget := w, clamped := reduced,
                                 order := some { kind := o.kind, speed := o.speed, rule := o.rule } }) ∧
  (∀ (u : UnitNo) (k : SlotNo) (g : GateNo) (o : Order) (t x : Int) (s : State), s.resetHeld = false → MarksClear s →
    (s.unitInput u).lined = false → (s.unit u).state = .liningUp → (s.unit u).slot = some k →
    (s.unit u).gate = some g → (s.slot k).state = .granted → (s.slot k).order = some o → o.gate = g →
    o.kind = .set → o.rule = .refuse → o.target = some t → (s.gate g).opening = some x → x < t → s.ceiling g < t →
    exec (.linedUpChange u true) s = .next
      ((completes ((s.setUnitInput u { s.unitInput u with lined := true }).setUnit u
          { s.unit u with state := .idle, slot := none, gate := none, cause := none,
                          timer := some (.idle, (s.unit u).idleTime * 1000), pump := true, manifold := none }) k o
        { outcome := .envelope, cause := none, finalL := (s.gate g).endL.held, finalR := (s.gate g).endR.held,
          startTime := some s.clock, endTime := s.clock, unitUsed := some u, unread := true,
          overwritten := (s.slot k).unread }).openRound.finish)) ∧
  (∀ (u : UnitNo) (b : Bool) (s : State), (s.unitInput u).lined ≠ b → b = false ∨ (s.unit u).state ≠ .liningUp →
    exec (.linedUpChange u b) s = .next (s.setUnitInput u { s.unitInput u with lined := b }))

/-- R99, R101, R103, R56: the start and line-up timers take the unit OUT_OF_SERVICE with its notice and return the grant;
the idle timer stops the pump. First with an empty start queue, the round a return opens shown outside RUN; then in every
mode, the round being taken at the event's end, and with the starter passed to the head of the queue (R95). That a timer
that does not run changes nothing is a choice of the model (log 2). -/
def Obligations.UnitTimersExpire : Prop :=
  (∀ (u : UnitNo) (s : State), s.resetHeld = false → MarksClear s → s.startQueue = [] →
    let out := fun c : OutCause => (s.setUnit u
      { s.unit u with state := .outOfService, slot := none, gate := none, cause := some c, timer := none, pump := false,
                      manifold := none }).notify (.unitState u .out c s.clock)
    ((s.unit u).state = .starting → (s.unit u).runs .start = true → (s.unit u).slot = none →
      exec (.startTimerExpiry u) s = .next (out .startFailed)) ∧
    (∀ k : SlotNo, (s.unit u).slot = some k → (s.slot k).state = .granted → s.mode ≠ .run →
      let back := fun t : State =>
        t.setSlot k { s.slot k with state := .pending, unit := none, grantTime := none }
      ((s.unit u).state = .starting → (s.unit u).runs .start = true →
        exec (.startTimerExpiry u) s = .next (back (out .startFailed))) ∧
      ((s.unit u).state = .liningUp → (s.unit u).runs .lineUp = true →
        exec (.lineUpTimerExpiry u) s = .next (back (out .lineUp)))) ∧
    ((s.unit u).state = .idle → (s.unit u).runs .idle = true →
      exec (.idleTimerExpiry u) s = .next (s.setUnit u
        { s.unit u with state := .off, slot := none, gate := none, cause := none, timer := none, pump := false,
                        manifold := none })) ∧
    ((s.unit u).timer = none →
      exec (.startTimerExpiry u) s = .next s ∧ exec (.lineUpTimerExpiry u) s = .next s ∧
        exec (.idleTimerExpiry u) s = .next s)) ∧
  (∀ (u : UnitNo) (s : State), s.resetHeld = false → MarksClear s →
    (∀ (v : UnitNo) (rest : List UnitNo), (s.unit u).state = .starting → (s.unit u).runs .start = true →
      s.startQueue = v :: rest → v ≠ u → (s.unitInput v).fault = false →
      exec (.startTimerExpiry u) s =
        .next (reservationReturned (startsNext (goesOut s u .startFailed) v rest) (s.unit u).slot).finish) ∧
    ((s.unit u).state = .starting → (s.unit u).runs .start = true → s.startQueue = [] →
      exec (.startTimerExpiry u) s =
        .next (reservationReturned (goesOut s u .startFailed) (s.unit u).slot).finish) ∧
    ((s.unit u).state = .liningUp → (s.unit u).runs .lineUp = true →
      exec (.lineUpTimerExpiry u) s = .next (reservationReturned (goesOut s u .lineUp) (s.unit u).slot).finish))

/-- R94, R104, R36, R56: a fault takes an IDLE, STARTING or LINING_UP unit OUT_OF_SERVICE with its notice and returns its
grant; an ASSIGNED unit goes OUT_OF_SERVICE first and its moving gate then trips with POWER_LOST; OFF and OUT_OF_SERVICE
units only record the level. A clearing, in every state of the unit and of the device, records the level and does nothing
else. A START_QUEUED unit leaves the start queue; from STARTING, reserved or not, the starter passes to the head of the
queue (R95); in every mode, the round of a return being taken at the event's end. That an assertion changes nothing at an
OFF unit which an abandonment has just freed, as R104 and R97 say against the last row of R89, is a choice of the model
(log 30), and so are that an assertion given again changes nothing (log 20) and that a clearing is recorded while the reset
line is held (log 4). -/
def Obligations.UnitFaultActs : Prop :=
  (∀ (u : UnitNo) (s : State),
    exec (.faultClearing u) s = .next (s.setUnitInput u { s.unitInput u with fault := false })) ∧
  (∀ (u : UnitNo) (s : State), s.resetHeld = false → MarksClear s → (s.unitInput u).fault = false →
    let s' := s.setUnitInput u { s.unitInput u with fault := true }
    let out := (s'.setUnit u
      { s.unit u with state := .outOfService, slot := none, gate := none, cause := some .fault, timer := none,
                      pump := false, manifold := none }).notify (.unitState u .out .fault s.clock)
    ((s.unit u).state = .off ∨ (s.unit u).state = .outOfService → exec (.faultAssertion u) s = .next s') ∧
    ((s.unit u).state = .idle → exec (.faultAssertion u) s = .next out) ∧
    (∀ k : SlotNo, (s.unit u).state = .liningUp ∨ (s.unit u).state = .starting ∧ s.startQueue = [] →
      (s.unit u).slot = some k → (s.slot k).state = .granted → s.mode ≠ .run →
      exec (.faultAssertion u) s = .next
        (out.setSlot k { s.slot k with state := .pending, unit := none, grantTime := none })) ∧
    (∀ g : GateNo, (s.unit u).state = .assigned → (s.unit u).gate = some g → (s.gate g).state.moving = true →
      exec (.faultAssertion u) s = .next (out.tripGate g .powerLost 0 .both).finish) ∧
    exec (.faultAssertion u) s' = .next s' ∧
    ((s.unit u).state = .startQueued →
      exec (.faultAssertion u) s = .next
        (reservationReturned { out with startQueue := s.startQueue.filter fun v => v != u } (s.unit u).slot).finish) ∧
    ((s.unit u).state = .starting → s.startQueue = [] →
      exec (.faultAssertion u) s = .next (reservationReturned out (s.unit u).slot).finish) ∧
    (∀ (v : UnitNo) (rest : List UnitNo), (s.unit u).state = .starting → s.startQueue = v :: rest → v ≠ u →
      (s.unitInput v).fault = false →
      exec (.faultAssertion u) s = .next (reservationReturned (startsNext out v rest) (s.unit u).slot).finish) ∧
    ((s.unit u).state = .liningUp →
      exec (.faultAssertion u) s = .next (reservationReturned out (s.unit u).slot).finish))

/-- R106, R107, R105: OUT takes an OFF or IDLE unit OUT_OF_SERVICE with cause MAINTENANCE and its notice, has no effect on one
out of service, and is refused UNIT_BUSY otherwise; IN returns one out of service to OFF with its notice unless its fault
stands, and has no effect on one in service. The round that IN opens is shown outside RUN. -/
def Obligations.UnitServiceChanges : Prop :=
  ∀ (n : Byte) (u : UnitNo) (s : State), Listening s → MarksClear s → s.mode ≠ .resetting →
    let refused := fun st : Status =>
      s.placeReply { number := n, kind := 0x17, status := st, detail := 0, data := [] }
    ((s.unit u).state = .off ∨ (s.unit u).state = .idle →
      exec (.setUnitServiceOut n u.val) s = .next (((s.setUnit u
        { s.unit u with state := .outOfService, slot := none, gate := none, cause := some .maintenance, timer := none,
                        pump := false, manifold := none }).notify (.unitState u .out .maintenance s.clock)).reply
        s.link.line.isNone (okReply n 0x17 []))) ∧
    ((s.unit u).state = .startQueued ∨ (s.unit u).state = .starting ∨ (s.unit u).state = .liningUp ∨
        (s.unit u).state = .assigned →
      exec (.setUnitServiceOut n u.val) s = .next (refused .unitBusy)) ∧
    ((s.unit u).state = .outOfService →
      exec (.setUnitServiceOut n u.val) s = .next (s.placeReply (okReply n 0x17 []))) ∧
    ((s.unit u).state ≠ .outOfService →
      exec (.setUnitServiceIn n u.val) s = .next (s.placeReply (okReply n 0x17 []))) ∧
    ((s.unit u).state = .outOfService → (s.unitInput u).fault = true →
      exec (.setUnitServiceIn n u.val) s = .next (refused .faultPresent)) ∧
    (∀ c : OutCause, (s.unit u).state = .outOfService → (s.unitInput u).fault = false → (s.unit u).cause = some c →
      s.mode ≠ .run →
      exec (.setUnitServiceIn n u.val) s = .next (((s.setUnit u
        { s.unit u with state := .off, slot := none, gate := none, cause := none, timer := none, pump := false,
                        manifold := none }).notify (.unitState u .into c s.clock)).reply
        s.link.line.isNone (okReply n 0x17 [])))

/-! ### Tide and envelope -/

/-- R110 to R113: a gauge sample restarts the silence timer, stores a valid level, and moves the gauge between UNKNOWN,
GOOD and FAULTED, GOOD again at the third consecutive valid level; silence makes it FAULTED. The other gauge and the clock
stay. R114, R118, R123, R125: the arrival's own event comes first; then the DOWN history is appended to, or emptied with
the surge mark cleared as the gauge leaves GOOD; then the gauge's thresholds are served, or become UNKNOWN as it leaves
GOOD; then the head is formed or lost; the events stand in the order they are raised. R114, R126: the head is handed to
the envelope unit, and then each event in turn becomes a TIDE_EVENT notice and is matched. That an expiry with no silence
timer running changes nothing (log 2), that the level 0 stands for that of a silent GOOD gauge that has none (log 18), and
that the sample which makes an UNKNOWN DOWN gauge GOOD joins the history (log 32) are choices of the model. -/
def Obligations.GaugeRecordFollows : Prop :=
  (∀ (g h : Gauge) (s : State), s.resetHeld = false → h ≠ g →
    let r := s.tide.gauge g
    (∀ x : Int,
      let ok := r.low ≤ x ∧ x ≤ r.high
      ∃ t, exec (.gaugeSample g x) s = .next t ∧ t.clock = s.clock ∧ t.tide.gauge h = s.tide.gauge h ∧
        t.tide.gauge g = { r with
          silence := some 5000, level := if ok then some x else r.level,
          state := if ok then (if r.state = .faulted ∧ r.recovery < 2 then .faulted else .good) else .faulted,
          recovery := if r.state = .faulted ∧ ok ∧ r.recovery < 2 then r.recovery + 1
                      else if r.state = .faulted ∨ ¬ok then 0 else r.recovery }) ∧
    (r.silence.isSome = true →
      ∃ t, exec (.gaugeSilenceExpiry g) s = .next t ∧ t.clock = s.clock ∧ t.tide.gauge h = s.tide.gauge h ∧
        t.tide.gauge g = { r with silence := none, recovery := 0, state := .faulted }) ∧
    (r.silence = none → MarksClear s → exec (.gaugeSilenceExpiry g) s = .next s)) ∧
  (∀ (g : Gauge) (s : State), s.resetHeld = false →
    (∀ x : Int, exec (.gaugeSample g x) s = .next (s.afterTide (s.tide.sample g x s.clock)).finish) ∧
    ((s.tide.gauge g).silence.isSome = true →
      exec (.gaugeSilenceExpiry g) s = .next (s.afterTide (s.tide.silent g s.clock)).finish)) ∧
  (∀ (t : Tide) (g : Gauge) (now : Clock),
    let r := t.gauge g
    let event := fun (k : EventKind) (v : Int) =>
      [({ kind := k, index := none, gauge := some g, value := v, time := now } : TideEvent)]
    (∀ x : Int,
      let ok := r.low ≤ x ∧ x ≤ r.high
      let own := if r.state = .good ∧ ¬ok then event .gaugeFault x
        else if r.state = .faulted ∧ ok ∧ 2 ≤ r.recovery then event .gaugeOk x else []
      let rest := t.serve g (r.sample x).1 now
      t.sample g x now = (rest.1, own ++ rest.2.1, rest.2.2)) ∧
    (let own := if r.state = .good then event .gaugeFault (r.level.getD 0) else []
     let rest := t.serve g { r with silence := none, recovery := 0, state := .faulted } now
     t.silent g now = (rest.1, own ++ rest.2.1, rest.2.2))) ∧
  (∀ (t : Tide) (g : Gauge) (r : GaugeRec) (now : Clock),
    let t' := t.setGauge g r
    let signal : Signal := match g with
      | .up => .up
      | .down => .down
    (∀ x : Int, r.state = .good → r.level = some x →
      let a := if g = .down then t'.append x now else (t', [])
      let b := a.1.offerTo signal x now allThresholds
      let c := b.1.formHead true now
      t.serve g r now = (c.1, a.2 ++ b.2 ++ c.2.1, c.2.2)) ∧
    (r.state ≠ .good → (t.gauge g).state = .good →
      t.serve g r now =
        ((if g = .down then { t' with history := [], surge := false } else t').forget signal).formHead false now) ∧
    (r.state ≠ .good → (t.gauge g).state ≠ .good → t.serve g r now = t'.formHead false now)) ∧
  (∀ (t : Tide) (l : List TideEvent) (e : TideEvent) (c : HeadChange) (s : State),
    s.afterTide (t, [], c) = { s with tide := t }.handOver c ∧
      s.afterTide (t, l ++ [e], c) = ((s.afterTide (t, l, c)).notify (.tideEvent e)).matchEvent e ∧
      (s.afterTide (t, l, c)).tide = t)

/-- R117: a threshold that is UNKNOWN takes the side of the value without an event; BELOW rises at its level or above;
ABOVE falls below its level less the hysteresis; within the band nothing changes. R114, R116: a value serves the enabled
thresholds of its signal, whose events come in number order. R118: every threshold of a lost signal becomes UNKNOWN.
R120 to R122: a head sample beyond the turn band on a side that is not the present direction counts toward that side, any
other clears the count, and the sample that completes turn_confirm turns the direction. R123, R124: an append keeps the
newest 61 levels and tests the rise over a full history: SURGE above surge_rate, the mark cleared below half of it. R115:
both gauges GOOD, a fresh level forms the head, which serves the HEAD thresholds and then the confirmation; a gauge out of
GOOD loses it, with the HEAD thresholds and the count. -/
def Obligations.ThresholdRule : Prop :=
  (∀ (r : Threshold) (v : Int),
    (r.state = .unknown → r.evaluate v = ({ r with state := if v < r.level then .below else .above }, none)) ∧
    (r.state = .below → r.level ≤ v → r.evaluate v = ({ r with state := .above }, some .rise)) ∧
    (r.state = .below → v < r.level → r.evaluate v = (r, none)) ∧
    (r.state = .above → v < r.level - r.hysteresis → r.evaluate v = ({ r with state := .below }, some .fall)) ∧
    (r.state = .above → r.level - r.hysteresis ≤ v → r.evaluate v = (r, none))) ∧
  (∀ (t : Tide) (sig : Signal) (v : Int) (now : Clock),
    let forgotten := fun r : Threshold => if r.signal = sig then { r with state := .unknown } else r
    let served := fun i : ThrNo => (t.thresholds.get i).enabled = true ∧ (t.thresholds.get i).signal = sig
    t.offerTo sig v now allThresholds =
      ({ t with thresholds := Vector.ofFn fun i =>
          if served i then ((t.thresholds.get i).evaluate v).1 else t.thresholds.get i },
        allThresholds.filterMap fun i =>
          if served i then ((t.thresholds.get i).evaluate v).2.map fun k =>
            { kind := k, index := some i, gauge := none, value := v, time := now }
          else none) ∧
    t.forget sig = { t with thresholds := Vector.ofFn fun i => forgotten (t.thresholds.get i) }) ∧
  (∀ (t : Tide) (head : Int) (now : Clock),
    let side : Option Side :=
      if t.turnBand < head then (if t.direction = .ebb then none else some .ebb)
      else if head < -t.turnBand then (if t.direction = .flood then none else some .flood)
      else none
    let count := if t.confirmSide = side then t.confirmCount + 1 else 1
    (side = none → t.confirm head now = ({ t with confirmCount := 0, confirmSide := none }, [])) ∧
    (side.isSome = true → count < t.turnConfirm →
      t.confirm head now = ({ t with confirmCount := count, confirmSide := side }, [])) ∧
    (side = some .ebb → t.turnConfirm ≤ count →
      t.confirm head now = ({ t with confirmCount := 0, confirmSide := none, direction := .ebb },
        [{ kind := .turnEbb, index := none, gauge := none, value := head, time := now }])) ∧
    (side = some .flood → t.turnConfirm ≤ count →
      t.confirm head now = ({ t with confirmCount := 0, confirmSide := none, direction := .flood },
        [{ kind := .turnFlood, index := none, gauge := none, value := head, time := now }]))) ∧
  (∀ (t : Tide) (x : Int) (now : Clock),
    let h := (if 61 ≤ t.history.length then t.history.tail else t.history) ++ [x]
    let rise := x - h.headD 0
    let kept := { t with history := h }
    (h.length ≠ 61 → t.append x now = (kept, [])) ∧
    (h.length = 61 → t.surge = false → rise ≤ t.surgeRate → t.append x now = (kept, [])) ∧
    (h.length = 61 → t.surge = false → t.surgeRate < rise →
      t.append x now = ({ kept with surge := true },
        [{ kind := .surge, index := none, gauge := none, value := rise, time := now }])) ∧
    (h.length = 61 → t.surge = true → rise < t.surgeRate.tdiv 2 → t.append x now = ({ kept with surge := false }, [])) ∧
    (h.length = 61 → t.surge = true → t.surgeRate.tdiv 2 ≤ rise → t.append x now = (kept, []))) ∧
  (∀ (t : Tide) (fresh : Bool) (now : Clock),
    (∀ u d : Int, t.up.state = .good → t.down.state = .good → t.up.level = some u → t.down.level = some d →
      let a := { t with head := some (u - d) }.offerTo .head (u - d) now allThresholds
      let b := a.1.confirm (u - d) now
      t.formHead true now = (b.1, a.2 ++ b.2, .sample (u - d))) ∧
    (t.up.state = .good → t.down.state = .good → t.formHead false now = (t, [], .none)) ∧
    (t.up.state ≠ .good ∨ t.down.state ≠ .good → t.head.isSome = true →
      t.formHead fresh now =
        ({ t.forget .head with head := none, confirmCount := 0, confirmSide := none }, [], .lost)) ∧
    (t.up.state ≠ .good ∨ t.down.state ≠ .good → t.head = none → t.formHead fresh now = (t, [], .none)))

/-- R130 to R134: the ceiling in force is the cell of the current band, or the lowest cell while there is none, capped at opening_max;
a head's band is the number of boundaries at or below it. A SET or STREAM target above both opening and ceiling is
limited under CLAMP, to the ceiling or to the opening if that is higher, and under REFUSE, to the opening; no other
target is limited. R131: the band follows each head sample and is absent after a loss of head. R137: a gate whose ceiling
has fallen is checked in TRAVEL, SETTLING and HELD; two such gates are checked in an order the spec leaves open (log 9).
R28, R161: a limited target is replaced by its limit within 0 to opening_max; CLAMP sets the clamped mark, REFUSE records
ENVELOPE if no outcome is pending and makes a streamed move final. SETTLING counts its quiet samples anew, HELD under
REFUSE enters TRAVEL, and TRAVEL makes the reach test and sets its valves. That a report which a check brings about is acted
on at once is a choice of the model (log 23). -/
def Obligations.CeilingAndLimitRule : Prop :=
  (∀ (b : Vector Int 7) (h : Int), (∀ i j : Fin 7, i < j → b.get i < b.get j) →
    ∀ i : Fin 7, i.val < (bandOf b h).val ↔ b.get i ≤ h) ∧
  (∀ (s : State) (g : GateNo) (b : BandNo), s.envelope.band = some b →
    s.ceiling g = min (s.envelope.cell b g) (s.gate g).params.openingMax) ∧
  (∀ (s : State) (g : GateNo), s.envelope.band = none →
    (∀ b, s.ceiling g ≤ s.envelope.cell b g) ∧ s.ceiling g ≤ (s.gate g).params.openingMax ∧
      ((∃ b, s.ceiling g = s.envelope.cell b g) ∨ s.ceiling g = (s.gate g).params.openingMax)) ∧
  (∀ (k : OrderKind) (r : EnvRule) (x c t : Int),
    limitedTarget k r x c t =
      if k ≠ .level ∧ r ≠ .override ∧ x < t ∧ c < t then some (if r = .clamp ∧ x ≤ c then c else x) else none) ∧
  (∀ (c : HeadChange) (s : State), MarksClear s →
    let band : Option BandNo := match c with
      | .none => s.envelope.band
      | .sample h => some (bandOf s.envelope.boundaries h)
      | .lost => none
    let s' := { s with envelope := { s.envelope with band := band } }
    let checked := allGates.filter fun g => decide (s'.ceiling g < s.ceiling g) && (s'.fallChange g).isSome
    (s.handOver c).envelope = s'.envelope ∧ (∀ g, g ∉ checked → (s.handOver c).gate g = s.gate g) ∧
      (checked = [] → s.handOver c = s') ∧ (∀ g, checked = [g] → s.handOver c = (s'.checkFall g).takeReport)) ∧
  (∀ (g : GateNo) (o : RunOrder) (x t : Int) (s : State),
    let r := s.gate g
    let limit := limitedTarget o.kind o.rule x (s.ceiling g) t
    r.move.order = some o → r.opening = some x → r.move.target = some t →
    (r.state ≠ .travel → r.state ≠ .settling → r.state ≠ .held → s.checkFall g = s) ∧ (limit = none → s.checkFall g = s) ∧
    (∀ v : Int, limit = some v →
      let w := max 0 (min v r.params.openingMax)
      let m : Move :=
        if o.rule = .refuse then
          { r.move with target := some w, outcome := some (r.move.outcome.getD .envelope),
                        final := r.move.final || o.kind == .stream,
                        clamped := r.move.clamped || decide (r.params.openingMax < v) }
        else { r.move with target := some w, clamped := true }
      let r' := { r with move := m }
      (r.state = .settling → s.checkFall g = s.setGate g { r with move := { m with quiet := 0 } }) ∧
      (r.state = .held → o.rule ≠ .refuse → s.checkFall g = s.setGate g r') ∧
      (r.state = .held → o.rule = .refuse → s.checkFall g = (s.setGate g r').enterTravel g) ∧
      (r.state = .travel → s.checkFall g = ((s.setGate g r').reachTest g).setValves g) ∧
      (r.state = .travel → o.kind = .set → mag (x - w) ≤ r.params.deadband →
        s.checkFall g = s.setGate g (settlingRecord r')) ∧
      (r.state = .travel → o.kind = .set → r.params.deadband < mag (x - w) → r.move.trimEnd = none →
        ∃ r'', s.checkFall g = s.setGate g r'' ∧ r''.state = .travel ∧ r''.move = m ∧
          (∀ y : HoistEnd, (r''.hoist y).valve =
            let rate := if mag (w - x) < r.params.approach then 2 else
              match o.speed with
              | .slow => 2
              | .normal => 5
              | .fast => 8
            if x < w then .raise rate else .lower rate))))

/-! ### The profile pool -/

/-- R148, R149: PUSH_POINTS appends the points that the queue has room for, in order, replies with their number and OK,
or QUEUE_FULL when some were dropped, and raises PROFILE_LEVEL when the level rises above the limit of a RISING queue. A
HELD gate that got a point enters TRAVEL. R151: FLUSH_POINTS empties the queue and puts the read position at the base; a
queue of size 0 answers NO_QUEUE, and one whose gate has a STREAM order GRANTED or RUNNING answers STREAM_ACTIVE.
That NO_QUEUE is answered where both hold is a choice of the model (log 33). -/
def Obligations.PoolRequestsWrite : Prop :=
  (∀ (n : Byte) (g : GateNo) (l : List RawPoint) (s : State), Listening s → MarksClear s → s.mode ≠ .resetting →
    1 ≤ l.length → l.length ≤ 16 → firstBad (pointChecks 0 l) = none → (s.gate g).state ≠ .absent →
    (s.queue g).size ≠ 0 → (∀ p ∈ l, p.target ≤ (s.gate g).params.openingMax) →
    let q := s.queue g
    let room := q.size - q.level
    let q' := { q with points := q.points ++ (l.map pointOf).take room }
    let s' := s.setQueue g q'
    let s'' := if q.limitDir = .rising ∧ q.level ≤ q.limit ∧ q.limit < q'.level then
        s'.notify (.profileLevel g q'.level q.limit .rising s.clock) else s'
    let r : Reply := { number := n, kind := 0x19, status := if room < l.length then .queueFull else .ok, detail := 0,
                       data := [BitVec.ofNat 8 (min l.length room)] }
    ((s.gate g).state ≠ .held ∨ room = 0 →
      exec (.pushPoints n g.val l) s = .next (s''.reply s.link.line.isNone r)) ∧
    ((s.gate g).state = .held → room ≠ 0 →
      exec (.pushPoints n g.val l) s = .next ((s''.enterTravel g).finish.reply s.link.line.isNone r))) ∧
  (∀ (n : Byte) (g : GateNo) (s : State), Listening s → MarksClear s → s.mode ≠ .resetting →
    let refused := fun st : Status =>
      exec (.flushPoints n g.val) s =
        .next (s.placeReply { number := n, kind := 0x1B, status := st, detail := 0, data := [] })
    ((s.queue g).size = 0 → refused .noQueue) ∧
    ((s.queue g).size ≠ 0 → s.streamActive g = true → refused .streamActive) ∧
    ((s.queue g).size ≠ 0 → s.streamActive g = false →
      exec (.flushPoints n g.val) s = .next
        ((s.setQueue g { s.queue g with points := [], readPos := (s.queue g).base }).placeReply (okReply n 0x1B []))))

/-- R153, R154: a pop takes the oldest point, advances the read position within the partition, gives the gate the point's
tag and its rate (at 10 times distance over step_time, within 2 to 8 mm/s), and limits the target; a FALLING queue at its
limit and a MARK point raise their notices. R155: a STREAM gate entering TRAVEL under a final mark keeps its target, with an
empty queue enters HELD, and else pops and makes the entry's checks. R156, R158: at the reach of a STREAM target the cut
mark takes the gate to LOCKING with outcome CUT unless one was pending, an END point or the final mark to SETTLING, an
empty queue to HELD with its STREAM_HELD notice, and else the next point is popped and the reach tested again. R25, R154:
an accepted sample short of the target drives both valves at the stream rate, SLOW inside approach. The one reach test at
the entry (log 22) and the numbers a notice carries where the record has none (log 18) are choices of the model. -/
def Obligations.PopTakesOldestPoint : Prop :=
  (∀ (g : GateNo) (p : Point) (rest : List Point) (x : Int) (o : RunOrder) (s : State), (s.queue g).points = p :: rest →
    (s.gate g).opening = some x → (s.gate g).move.order = some o →
    let w := max 0 (min p.target (s.gate g).params.openingMax)
    limitedTarget o.kind o.rule x (s.ceiling g) w = none →
    let q := s.queue g
    let t := s.pop g
    let rate := (mag (w - x)).toNat * 10 / p.stepTime
    t.queue g = { q with points := rest, readPos := q.cellAt 1 } ∧
      (t.gate g).move = { (s.gate g).move with
        target := some w, tag := some p.tag, rate := some (if rate < 2 then 2 else if 8 < rate then 8 else rate),
        clamped := (s.gate g).move.clamped || decide ((s.gate g).params.openingMax < p.target) } ∧
      (∀ h, h ≠ g → t.gate h = s.gate h ∧ t.queue h = s.queue h) ∧
      t.link = ((if q.limitDir = .falling ∧ q.level = q.limit then
          s.notify (.profileLevel g rest.length q.limit .falling s.clock) else s).link |>
        fun l => if p.tag = .mark then
          l.take (.profileMark g ((s.gate g).move.slot.getD 0) p rest.length s.clock) else l)) ∧
  (∀ (g : GateNo) (s : State),
    let r := s.gate g
    let held := fun r : GateRec => (s.setGate g (heldRecord r (s.queue g).holdTime)).notify
      (.streamHeld g (r.move.slot.getD 0) r.move.target (r.opening.getD 0) s.clock)
    let entered := { r with state := .travel, phase := none, move := { r.move with hold := none } }
    r.kind = some .stream →
    (r.reached = false → s.reachTest g = s) ∧
    (r.reached = true → r.move.cut = true → s.bothPins g .engaged = false →
      ∃ r', s.reachTest g = s.setGate g r' ∧ EntersLocking r r' ∧
        r'.move.outcome = some (r.move.outcome.getD .cut)) ∧
    (r.reached = true → r.move.cut = false →
      (r.move.tag = some .last ∨ r.move.final = true → s.reachTest g = s.setGate g (settlingRecord r)) ∧
      (r.move.tag ≠ some .last → r.move.final = false →
        ((s.queue g).points = [] → s.reachTest g = held r) ∧
        ((s.queue g).points ≠ [] → s.reachTest g = (s.pop g).reachTest g))) ∧
    (r.move.cut = false →
      (r.move.final = true → s.enterTravel g = (s.setGate g entered).travelEntry g) ∧
      (r.move.final = false →
        ((s.queue g).points = [] → s.enterTravel g = held entered) ∧
        ((s.queue g).points ≠ [] → s.enterTravel g = ((s.setGate g entered).pop g).travelEntry g)))) ∧
  (∀ (g : GateNo) (s : State), (s.gate g).envelopeChange (s.ceiling g) = none →
    ((s.gate g).travelTrip = none → s.travelEntry g = (s.reachTest g).setValves g) ∧
    (∀ (c : TripCause) (further : BitVec 7) (e : Concern), (s.gate g).travelTrip = some (c, further, e) →
      s.travelEntry g = s.tripGate g c further e)) ∧
  (∀ (g : GateNo) (ch : Channel) (count pressure elapsed : Nat) (o : RunOrder) (c t k : Int) (s : State),
    s.resetHeld = false → MarksClear s →
    let r := s.gate g
    let e := r.params.swap.endOf ch
    let x := r.params.opening e count
    let r1 := accepts r e x pressure
    r.state = .travel → r.move.order = some o → o.kind = .stream → passesTests (r.hoist e) x elapsed →
    r1.opening = some c → r1.skew = some k → r.move.target = some t → r1.travelTrip = none →
    (mag (c - t) ≤ r.params.deadband →
      exec (.encoderSample g ch count pressure elapsed) s = .next
        (let u := (s.setGate g (r1.modEnd e EndRec.watch)).reachTest g
         if (u.gate g).state = .travel then u.modGate g fun r => r.trim.setValves else u).finish) ∧
    (r.params.deadband < mag (c - t) → r.move.trimEnd = none → mag k ≤ r.params.skewTrim →
      ∃ r', exec (.encoderSample g ch count pressure elapsed) s = .next (s.setGate g r') ∧ r'.state = .travel ∧
        r'.move = r.move ∧ (∀ y : HoistEnd, (r'.hoist y).valve =
          let rate := if mag (t - c) < r.params.approach then 2 else r.move.rate.getD 2
          if c < t then .raise rate else .lower rate)))

/-! ### The stage table and the runner -/

/-- R166, R167, R168: SET_LOAD_WINDOW writes the window and puts the pointer at its first cell; WRITE_CELLS writes each
value at the pointer and replies with the pointer; SET_STEP_DWELL writes the dwell. One value written goes into the cell
at the pointer and no other, and the pointer advances through the window, gate first or step first, back to the first
cell from the last. -/
def Obligations.StageTableWrites : Prop :=
  (∀ (n : Byte) (s : State), Listening s → MarksClear s → s.mode ≠ .resetting →
    (∀ (a b : StepNo) (c d : GateNo) (v : Nat) (w : Advance), a ≤ b → c ≤ d → advanceOf v = some w →
      exec (.setLoadWindow n { firstStep := a.val, lastStep := b.val, firstGate := c.val, lastGate := d.val,
                               advance := v }) s = .next
        ({ s with stage := { s.stage with
            window := { firstStep := a, lastStep := b, firstGate := c, lastGate := d, advance := w },
            pointer := (a, c) } }.placeReply (okReply n 0x1D []))) ∧
    (∀ l : List Nat, 1 ≤ l.length → l.length ≤ 32 → (∀ x ∈ l, x = 65535 ∨ x ≤ 12000) →
      let t := (l.map cellOf).foldl Stage.writeCell s.stage
      exec (.writeCells n l) s = .next ({ s with stage := t }.placeReply
        (okReply n 0x1E [BitVec.ofNat 8 t.pointer.1.val, BitVec.ofNat 8 t.pointer.2.val]))) ∧
    (∀ (i : StepNo) (x : Nat), x ≤ 3600 →
      let steps := s.stage.steps.set i.val { s.stage.steps.get i with dwell := x } i.isLt
      exec (.setStepDwell n i.val x) s = .next
        ({ s with stage := { s.stage with steps := steps } }.placeReply (okReply n 0x1F [])))) ∧
  (∀ (t : Stage) (v : Option Int),
    let w := t.window
    let t' := t.writeCell v
    (∀ (i : StepNo) (g : GateNo), (t'.steps.get i).cells.get g =
      if (i, g) = t.pointer then v else (t.steps.get i).cells.get g) ∧
    (∀ i : StepNo, (t'.steps.get i).dwell = (t.steps.get i).dwell) ∧ t'.window = w ∧
    (w.advance = .gateFirst →
      (t.pointer.2 ≠ w.lastGate → t'.pointer = (t.pointer.1, t.pointer.2 + 1)) ∧
      (t.pointer.2 = w.lastGate → t.pointer.1 ≠ w.lastStep → t'.pointer = (t.pointer.1 + 1, w.firstGate))) ∧
    (w.advance = .stepFirst →
      (t.pointer.1 ≠ w.lastStep → t'.pointer = (t.pointer.1 + 1, t.pointer.2)) ∧
      (t.pointer.1 = w.lastStep → t.pointer.2 ≠ w.lastGate → t'.pointer = (w.firstStep, t.pointer.2 + 1))) ∧
    (t.pointer = (w.lastStep, w.lastGate) → t'.pointer = (w.firstStep, w.firstGate)))

/-- R170: DEFINE_SEQUENCE replaces the definition while the runner is IDLE, and is refused SEQUENCE_ACTIVE otherwise.
R172 to R175, R179: START_SEQUENCE needs a definition and an IDLE runner; its first posting attempt posts the step's
cells on the FREE slots of the window in number order, waits for FREE slots, or ends the sequence FAILED. Posting is
shown outside RUN, where the round it opens grants nothing. -/
def Obligations.SequenceDefinedAndStarted : Prop :=
  (∀ (n : Byte) (a b : StepNo) (c d : SlotNo) (reps prio sp ru : Nat) (v : Speed) (w : EnvRule) (s : State),
    Listening s → MarksClear s → s.mode ≠ .resetting → a ≤ b → c ≤ d → 1 ≤ reps → reps ≤ 255 → prio ≤ 15 →
    speedOf sp = some v → ruleOf ru = some w →
    let def' : SequenceDef :=
      { firstStep := a, lastStep := b, repetitions := reps, windowFirst := c, windowLast := d, priority := prio,
        speed := v, rule := w }
    let i : Instr := .defineSequence n { firstStep := a.val, lastStep := b.val, repetitions := reps, windowFirst := c.val,
                                         windowLast := d.val, priority := prio, speed := sp, rule := ru }
    (s.runner.state = .idle →
      exec i s = .next ({ s with definition := some def' }.placeReply (okReply n 0x21 []))) ∧
    (s.runner.state ≠ .idle →
      exec i s = .next (s.placeReply { number := n, kind := 0x21, status := .sequenceActive, detail := 0, data := [] }))) ∧
  (∀ (n : Byte) (s : State), Listening s → MarksClear s →
    s.mode = .config ∨ s.mode = .run ∨ s.mode = .draining ∧ s.flavour = some .hold →
    (s.definition = none → exec (.startSequence n) s = .next (s.placeReply
      { number := n, kind := 0x22, status := .noSequence, detail := 0, data := [] })) ∧
    (∀ d : SequenceDef, s.definition = some d → s.runner.state ≠ .idle →
      exec (.startSequence n) s = .next (s.placeReply
        { number := n, kind := 0x22, status := .sequenceActive, detail := 0, data := [] })) ∧
    (∀ d : SequenceDef, s.definition = some d → s.runner.state = .idle →
      let cells := s.stepCells d.firstStep
      let free := d.window.filter fun k => (s.slot k).state == .free
      let started : Runner := { Runner.idle with state := .posting, step := some d.firstStep, pass := some 1,
                                                 posted := some 0, anyClamped := some false,
                                                 pointer := some d.windowFirst }
      let ends := fun c : FailCause =>
        exec (.startSequence n) s = .next (({ s with runner := .idle }.notify
          (.sequenceEnd .failed d.firstStep 1 (some c) none s.clock)).reply s.link.line.isNone (okReply n 0x22 []))
      (d.window.length < cells.length → ends .windowTooSmall) ∧
      (cells ≠ [] → cells.length ≤ d.window.length → cells.any (s.cellFails d) = true → ends .cellRefused) ∧
      (cells ≠ [] → cells.length ≤ d.window.length → cells.any (s.cellFails d) = false → free.length < cells.length →
        exec (.startSequence n) s = .next ({ s with runner := started }.placeReply (okReply n 0x22 []))) ∧
      (cells ≠ [] → cells.any (s.cellFails d) = false → cells.length ≤ free.length → s.mode ≠ .run → s.lock = none →
        ∃ t, exec (.startSequence n) s = .next t ∧ t.gates = s.gates ∧ t.stage = s.stage ∧
          t.runner = { started with
            state := .step, posted := some cells.length,
            outstanding := (cells.zip free).map fun p => (p.2, p.1.1),
            pointer := ((cells.zip free).getLast?).map fun p => if p.2 = d.windowLast then d.windowFirst else p.2 + 1 } ∧
          (∀ p ∈ cells.zip free, t.slot p.2 = { Slot.empty with
            state := .pending, owner := .sequence,
            order := some { kind := .set, gate := p.1.1, target := some p.1.2, speed := d.speed, priority := d.priority,
                            rule := d.rule, trigger := none, rep := .once, tag := d.firstStep.val } }) ∧
          (∀ k, k ∉ (cells.zip free).map Prod.snd → t.slot k = s.slot k))))

/-- R181, R180: STOP_SEQUENCE answers NOTHING_TO_STOP in IDLE and has no effect in WINDING_DOWN; in POSTING or DWELL it
ends the sequence ABORTED; in STEP it withdraws PENDING orders and waits in WINDING_DOWN for the RUNNING ones. R52,
R179, R180: withdrawing the one outstanding slot of a runner in STEP frees it and, by the notice of interference, ends
the sequence FAILED with cause INTERFERED and that slot. -/
def Obligations.SequenceStops : Prop :=
  (∀ (n : Byte) (s : State), Listening s → MarksClear s → s.mode = .config ∨ s.mode = .run ∨ s.mode = .draining →
    let ended := fun x : State => (x.setRunner .idle).notify
        (.sequenceEnd .aborted (s.runner.step.getD 0) (s.runner.pass.getD 0) none none s.clock)
    (s.runner.state = .idle → exec (.stopSequence n) s = .next
      (s.placeReply { number := n, kind := 0x23, status := .nothingToStop, detail := 0, data := [] })) ∧
    (s.runner.state = .windingDown → exec (.stopSequence n) s = .next (s.placeReply (okReply n 0x23 []))) ∧
    (s.runner.state = .posting ∨ s.runner.state = .dwell → s.runner.outstanding = [] →
      exec (.stopSequence n) s = .next ((ended s).reply s.link.line.isNone (okReply n 0x23 []))) ∧
    (∀ (k : SlotNo) (g : GateNo), s.runner.state = .step → s.runner.outstanding = [(k, g)] →
      (s.slot k).owner = .sequence → (s.slot k).state = .pending →
      exec (.stopSequence n) s = .next
        ((ended ({ s with lock := if s.lock = some k then none else s.lock }.setSlot k Slot.empty)).reply
          s.link.line.isNone (okReply n 0x23 []))) ∧
    (s.runner.state = .step → s.runner.outstanding ≠ [] →
      (∀ e ∈ s.runner.outstanding, (s.slot e.1).state = .running) →
      exec (.stopSequence n) s = .next
        ({ s with runner :=
            { s.runner with state := .windingDown, endOutcome := some .aborted, cause := none, failedSlot := none,
                            dwell := none, attemptsDue := 0 } }.placeReply (okReply n 0x23 [])))) ∧
  (∀ (n : Byte) (k : SlotNo) (g : GateNo) (s : State), Listening s → MarksClear s → s.mode ≠ .resetting →
    (s.slot k).owner = .sequence → (s.slot k).state = .pending ∨ (s.slot k).state = .done →
    s.runner.state = .step → s.runner.outstanding = [(k, g)] →
    exec (.withdrawOrder n k.val) s = .next
      ((({ s with lock := if s.lock = some k then none else s.lock, runner := .idle }.setSlot k Slot.empty).notify
          (.sequenceEnd .failed (s.runner.step.getD 0) (s.runner.pass.getD 0) (some .interfered) (some k)
            s.clock)).reply s.link.line.isNone (okReply n 0x10 [])))

/-- R71, R176, R177, R179, R180: a collection claim needs an offer (a choice of the model, log 15; an
offer of a slot that has been collected goes with it, log 29). In STEP a DONE slot that REACHED or was CLAMPED is freed
and the step waits for the rest; the last one ends the step in DWELL with SEQUENCE_STEP; another outcome of the last one
ends the sequence FAILED with it. In WINDING_DOWN the outcome plays no part beyond any CLAMPED, and the last
collection ends the sequence. -/
def Obligations.RunnerCollects : Prop :=
  ∀ (k : SlotNo) (s : State), s.resetHeld = false → MarksClear s →
    (k ∉ s.runner.offers → exec (.runnerCollection k) s = .next s) ∧
    (∀ (x : Report) (i : StepNo), k ∈ s.runner.offers → (s.slot k).state = .done → (s.slot k).owner = .sequence →
      (s.slot k).report = some x → s.lock ≠ some k → s.runner.step = some i →
      let rest := s.runner.outstanding.filter fun e => e.1 != k
      let freed := s.setSlot k Slot.empty
      let good := x.outcome = .reached ∨ x.outcome = .clamped
      let seconds := (s.stage.steps.get i).dwell
      (s.runner.state = .step → good → rest ≠ [] →
        exec (.runnerCollection k) s = .next (freed.setRunner
          { s.runner with outstanding := rest, offers := (s.runner.offers.erase k).filter fun j => j != k,
                          anyClamped := if x.outcome = .clamped then some true else s.runner.anyClamped })) ∧
      (s.runner.state = .step → good → rest = [] → seconds ≠ 0 →
        ∃ t, exec (.runnerCollection k) s = .next t ∧ t.slots = freed.slots ∧ t.gates = s.gates ∧
          t.runner.state = .dwell ∧ t.runner.dwell = some (seconds * 1000) ∧ t.runner.outstanding = [] ∧
          t.link = (s.notify (.sequenceStep i (s.runner.pass.getD 0) (s.runner.posted.getD 0)
            (if x.outcome = .clamped then true else s.runner.anyClamped.getD false) s.clock)).link) ∧
      (s.runner.state = .step → ¬good → rest = [] →
        exec (.runnerCollection k) s = .next ((freed.setRunner .idle).notify
          (.sequenceEnd .failed i (s.runner.pass.getD 0) (some (.outcome x.outcome)) (some k) s.clock))) ∧
      (s.runner.state = .windingDown → rest ≠ [] →
        exec (.runnerCollection k) s = .next (freed.setRunner
          { s.runner with outstanding := rest, offers := (s.runner.offers.erase k).filter fun j => j != k,
                          anyClamped := if x.outcome = .clamped then some true else s.runner.anyClamped })) ∧
      (∀ o : EndOutcome, s.runner.state = .windingDown → s.runner.endOutcome = some o → rest = [] →
        exec (.runnerCollection k) s = .next ((freed.setRunner .idle).notify
          (.sequenceEnd o i (s.runner.pass.getD 0) s.runner.cause s.runner.failedSlot s.clock))))

/-- R173, R175, R178: a posting attempt that is due posts the step when enough slots of the window are FREE, from the
pointer up, and otherwise waits; when the dwell has passed the runner goes to the next step, or to the first of the next
pass, or ends the sequence COMPLETE after the last. That nothing changes where no attempt is due and where no dwell timer
runs are choices of the model (logs 15 and 2). -/
def Obligations.RunnerPostsAndDwells : Prop :=
  ∀ (d : SequenceDef) (i : StepNo) (p : Nat) (s : State), s.resetHeld = false → MarksClear s →
    s.definition = some d → s.runner.step = some i → s.runner.pass = some p →
    let waits := fun (j : StepNo) => s.stepCells j ≠ [] ∧ (s.stepCells j).length ≤ d.window.length ∧
      (s.stepCells j).any (s.cellFails d) = false ∧
      (s.freeFrom d (s.runner.pointer.getD d.windowFirst)).length < (s.stepCells j).length
    let pairs := (s.stepCells i).zip (s.freeFrom d (s.runner.pointer.getD d.windowFirst))
    let after : Option (StepNo × Nat) :=
      if i < d.lastStep then some (i + 1, p) else if p < d.repetitions then some (d.firstStep, p + 1) else none
    (s.runner.state ≠ .posting ∨ s.runner.attemptsDue = 0 → exec .postingAttempt s = .next s) ∧
    (∀ m : Nat, s.runner.state = .posting → s.runner.attemptsDue = m + 1 → waits i →
      exec .postingAttempt s = .next (s.setRunner { s.runner with attemptsDue := m })) ∧
    (∀ m : Nat, s.runner.state = .posting → s.runner.attemptsDue = m + 1 → s.stepCells i ≠ [] →
      (s.stepCells i).any (s.cellFails d) = false → (s.stepCells i).length ≤ pairs.length → s.mode ≠ .run →
      ∃ t, exec .postingAttempt s = .next t ∧ t.gates = s.gates ∧ t.runner.state = .step ∧
        t.runner.posted = some (s.stepCells i).length ∧ t.runner.outstanding = pairs.map (fun q => (q.2, q.1.1)) ∧
        (∀ q ∈ pairs, t.slot q.2 = Slot.written (d.order i q.1) .sequence) ∧
        (∀ k, k ∉ pairs.map Prod.snd → t.slot k = s.slot k)) ∧
    (s.runner.state ≠ .dwell ∨ s.runner.dwell = none → exec .dwellTimerExpiry s = .next s) ∧
    (s.runner.state = .dwell → s.runner.dwell.isSome = true → after = none →
      exec .dwellTimerExpiry s = .next ((s.setRunner .idle).notify
        (.sequenceEnd .complete i p s.runner.cause s.runner.failedSlot s.clock))) ∧
    (∀ (j : StepNo) (q : Nat), s.runner.state = .dwell → s.runner.dwell.isSome = true → after = some (j, q) → waits j →
      exec .dwellTimerExpiry s = .next (s.setRunner
        { s.runner with state := .posting, step := some j, pass := some q, posted := some 0, anyClamped := some false,
                        dwell := none, offers := [], attemptsDue := 0 }))

/-! ### What every step keeps -/

/-- R202, R200: every step keeps the notice queue within 16 notices and the reply area within 2 replies. -/
def Obligations.StepKeepsLinkBounded : Prop :=
  ∀ s t : State, LinkBounded s → step s = .next t → LinkBounded t

/-- R48, R64: every step keeps FREE slots empty and the locked slot ARMED or DONE. -/
def Obligations.StepKeepsTableLawful : Prop :=
  (∀ s t : State, FreeEmpty s → step s = .next t → FreeEmpty t) ∧
    (∀ s t : State, LockLawful s → step s = .next t → LockLawful t)

/-- R93, R95: every step keeps at most one unit STARTING, the start queue equal to the START_QUEUED units, and the outputs
of every unit those of its state. -/
def Obligations.StepKeepsUnitsLawful : Prop :=
  (∀ s t : State, StarterLawful s → step s = .next t → StarterLawful t) ∧
    (∀ s t : State, UnitsLawful s → step s = .next t → UnitsLawful t)

/-- R143: every step keeps each queue within its partition, each partition within the pool, and no cell shared. -/
def Obligations.StepKeepsPoolLawful : Prop :=
  (∀ s t : State, QueuesFit s → step s = .next t → QueuesFit t) ∧
    (∀ s t : State, PartitionsApart s → step s = .next t → PartitionsApart t)

/-- R123: every step keeps the sea-side history within 61 entries. R184: every step keeps the drain flavour present
while the mode is DRAINING and absent otherwise. -/
def Obligations.StepKeepsHistoryAndFlavour : Prop :=
  (∀ s t : State, HistoryBounded s → step s = .next t → HistoryBounded t) ∧
  (∀ s t : State, FlavourLawful s → step s = .next t → FlavourLawful t)

/-- Chapter 2's outputs by state: every step keeps every gate's valves and lock-pin commands those of its state. -/
def Obligations.StepKeepsGateOutputs : Prop :=
  ∀ s t : State, GatesDriveTheirState s → step s = .next t → GatesDriveTheirState t

/-- R16: every step keeps the items of the move clear while a gate is ABSENT, PARKED or TRIPPED. -/
def Obligations.StepKeepsRestingGatesClear : Prop :=
  ∀ s t : State, RestingGatesClear s → step s = .next t → RestingGatesClear t

/-- Between steps no report and no grant round is due (a choice of the model, log 17). -/
def Obligations.StepKeepsMarksClear : Prop :=
  ∀ s t : State, MarksClear s → step s = .next t → MarksClear t
end

