-- ==== Sys2Proof/Laws/State.lean ====
section
/-! SUPPORT. One lemma per field per update of State, so that no proof unfolds a record update; and the reads of a record
after its own and another's update. -/

namespace Sys2Proof.Machine

@[simp] theorem State.mode_setGate (s : State) (g : GateNo) (r : GateRec) : (s.setGate g r).mode = s.mode := rfl
@[simp] theorem State.flavour_setGate (s : State) (g : GateNo) (r : GateRec) : (s.setGate g r).flavour = s.flavour := rfl
@[simp] theorem State.clock_setGate (s : State) (g : GateNo) (r : GateRec) : (s.setGate g r).clock = s.clock := rfl
@[simp] theorem State.resetHeld_setGate (s : State) (g : GateNo) (r : GateRec) : (s.setGate g r).resetHeld = s.resetHeld := rfl
@[simp] theorem State.link_setGate (s : State) (g : GateNo) (r : GateRec) : (s.setGate g r).link = s.link := rfl
@[simp] theorem State.slots_setGate (s : State) (g : GateNo) (r : GateRec) : (s.setGate g r).slots = s.slots := rfl
@[simp] theorem State.lock_setGate (s : State) (g : GateNo) (r : GateRec) : (s.setGate g r).lock = s.lock := rfl
@[simp] theorem State.arbitration_setGate (s : State) (g : GateNo) (r : GateRec) : (s.setGate g r).arbitration = s.arbitration := rfl
@[simp] theorem State.units_setGate (s : State) (g : GateNo) (r : GateRec) : (s.setGate g r).units = s.units := rfl
@[simp] theorem State.startQueue_setGate (s : State) (g : GateNo) (r : GateRec) : (s.setGate g r).startQueue = s.startQueue := rfl
@[simp] theorem State.tide_setGate (s : State) (g : GateNo) (r : GateRec) : (s.setGate g r).tide = s.tide := rfl
@[simp] theorem State.envelope_setGate (s : State) (g : GateNo) (r : GateRec) : (s.setGate g r).envelope = s.envelope := rfl
@[simp] theorem State.queues_setGate (s : State) (g : GateNo) (r : GateRec) : (s.setGate g r).queues = s.queues := rfl
@[simp] theorem State.stage_setGate (s : State) (g : GateNo) (r : GateRec) : (s.setGate g r).stage = s.stage := rfl
@[simp] theorem State.definition_setGate (s : State) (g : GateNo) (r : GateRec) : (s.setGate g r).definition = s.definition := rfl
@[simp] theorem State.runner_setGate (s : State) (g : GateNo) (r : GateRec) : (s.setGate g r).runner = s.runner := rfl
@[simp] theorem State.inputs_setGate (s : State) (g : GateNo) (r : GateRec) : (s.setGate g r).inputs = s.inputs := rfl
@[simp] theorem State.marks_setGate (s : State) (g : GateNo) (r : GateRec) : (s.setGate g r).marks = s.marks := rfl
@[simp] theorem State.freeCount_setGate (s : State) (g : GateNo) (r : GateRec) : (s.setGate g r).freeCount = s.freeCount := rfl
@[simp] theorem State.pending_setGate (s : State) (g : GateNo) (r : GateRec) : (s.setGate g r).pending = s.pending := rfl

@[simp] theorem State.mode_setSlot (s : State) (k : SlotNo) (r : Slot) : (s.setSlot k r).mode = s.mode := rfl
@[simp] theorem State.flavour_setSlot (s : State) (k : SlotNo) (r : Slot) : (s.setSlot k r).flavour = s.flavour := rfl
@[simp] theorem State.clock_setSlot (s : State) (k : SlotNo) (r : Slot) : (s.setSlot k r).clock = s.clock := rfl
@[simp] theorem State.resetHeld_setSlot (s : State) (k : SlotNo) (r : Slot) : (s.setSlot k r).resetHeld = s.resetHeld := rfl
@[simp] theorem State.link_setSlot (s : State) (k : SlotNo) (r : Slot) : (s.setSlot k r).link = s.link := rfl
@[simp] theorem State.lock_setSlot (s : State) (k : SlotNo) (r : Slot) : (s.setSlot k r).lock = s.lock := rfl
@[simp] theorem State.arbitration_setSlot (s : State) (k : SlotNo) (r : Slot) : (s.setSlot k r).arbitration = s.arbitration := rfl
@[simp] theorem State.units_setSlot (s : State) (k : SlotNo) (r : Slot) : (s.setSlot k r).units = s.units := rfl
@[simp] theorem State.startQueue_setSlot (s : State) (k : SlotNo) (r : Slot) : (s.setSlot k r).startQueue = s.startQueue := rfl
@[simp] theorem State.gates_setSlot (s : State) (k : SlotNo) (r : Slot) : (s.setSlot k r).gates = s.gates := rfl
@[simp] theorem State.tide_setSlot (s : State) (k : SlotNo) (r : Slot) : (s.setSlot k r).tide = s.tide := rfl
@[simp] theorem State.envelope_setSlot (s : State) (k : SlotNo) (r : Slot) : (s.setSlot k r).envelope = s.envelope := rfl
@[simp] theorem State.queues_setSlot (s : State) (k : SlotNo) (r : Slot) : (s.setSlot k r).queues = s.queues := rfl
@[simp] theorem State.stage_setSlot (s : State) (k : SlotNo) (r : Slot) : (s.setSlot k r).stage = s.stage := rfl
@[simp] theorem State.definition_setSlot (s : State) (k : SlotNo) (r : Slot) : (s.setSlot k r).definition = s.definition := rfl
@[simp] theorem State.runner_setSlot (s : State) (k : SlotNo) (r : Slot) : (s.setSlot k r).runner = s.runner := rfl
@[simp] theorem State.inputs_setSlot (s : State) (k : SlotNo) (r : Slot) : (s.setSlot k r).inputs = s.inputs := rfl
@[simp] theorem State.marks_setSlot (s : State) (k : SlotNo) (r : Slot) : (s.setSlot k r).marks = s.marks := rfl
@[simp] theorem State.freeCount_setSlot (s : State) (k : SlotNo) (r : Slot) : (s.setSlot k r).freeCount = s.freeCount := rfl
@[simp] theorem State.pending_setSlot (s : State) (k : SlotNo) (r : Slot) : (s.setSlot k r).pending = s.pending := rfl

@[simp] theorem State.mode_setUnit (s : State) (u : UnitNo) (r : PowerUnit) : (s.setUnit u r).mode = s.mode := rfl
@[simp] theorem State.flavour_setUnit (s : State) (u : UnitNo) (r : PowerUnit) : (s.setUnit u r).flavour = s.flavour := rfl
@[simp] theorem State.clock_setUnit (s : State) (u : UnitNo) (r : PowerUnit) : (s.setUnit u r).clock = s.clock := rfl
@[simp] theorem State.resetHeld_setUnit (s : State) (u : UnitNo) (r : PowerUnit) : (s.setUnit u r).resetHeld = s.resetHeld := rfl
@[simp] theorem State.link_setUnit (s : State) (u : UnitNo) (r : PowerUnit) : (s.setUnit u r).link = s.link := rfl
@[simp] theorem State.slots_setUnit (s : State) (u : UnitNo) (r : PowerUnit) : (s.setUnit u r).slots = s.slots := rfl
@[simp] theorem State.lock_setUnit (s : State) (u : UnitNo) (r : PowerUnit) : (s.setUnit u r).lock = s.lock := rfl
@[simp] theorem State.arbitration_setUnit (s : State) (u : UnitNo) (r : PowerUnit) : (s.setUnit u r).arbitration = s.arbitration := rfl
@[simp] theorem State.startQueue_setUnit (s : State) (u : UnitNo) (r : PowerUnit) : (s.setUnit u r).startQueue = s.startQueue := rfl
@[simp] theorem State.gates_setUnit (s : State) (u : UnitNo) (r : PowerUnit) : (s.setUnit u r).gates = s.gates := rfl
@[simp] theorem State.tide_setUnit (s : State) (u : UnitNo) (r : PowerUnit) : (s.setUnit u r).tide = s.tide := rfl
@[simp] theorem State.envelope_setUnit (s : State) (u : UnitNo) (r : PowerUnit) : (s.setUnit u r).envelope = s.envelope := rfl
@[simp] theorem State.queues_setUnit (s : State) (u : UnitNo) (r : PowerUnit) : (s.setUnit u r).queues = s.queues := rfl
@[simp] theorem State.stage_setUnit (s : State) (u : UnitNo) (r : PowerUnit) : (s.setUnit u r).stage = s.stage := rfl
@[simp] theorem State.definition_setUnit (s : State) (u : UnitNo) (r : PowerUnit) : (s.setUnit u r).definition = s.definition := rfl
@[simp] theorem State.runner_setUnit (s : State) (u : UnitNo) (r : PowerUnit) : (s.setUnit u r).runner = s.runner := rfl
@[simp] theorem State.inputs_setUnit (s : State) (u : UnitNo) (r : PowerUnit) : (s.setUnit u r).inputs = s.inputs := rfl
@[simp] theorem State.marks_setUnit (s : State) (u : UnitNo) (r : PowerUnit) : (s.setUnit u r).marks = s.marks := rfl
@[simp] theorem State.freeCount_setUnit (s : State) (u : UnitNo) (r : PowerUnit) : (s.setUnit u r).freeCount = s.freeCount := rfl
@[simp] theorem State.pending_setUnit (s : State) (u : UnitNo) (r : PowerUnit) : (s.setUnit u r).pending = s.pending := rfl

@[simp] theorem State.mode_setQueue (s : State) (g : GateNo) (q : Queue) : (s.setQueue g q).mode = s.mode := rfl
@[simp] theorem State.flavour_setQueue (s : State) (g : GateNo) (q : Queue) : (s.setQueue g q).flavour = s.flavour := rfl
@[simp] theorem State.clock_setQueue (s : State) (g : GateNo) (q : Queue) : (s.setQueue g q).clock = s.clock := rfl
@[simp] theorem State.resetHeld_setQueue (s : State) (g : GateNo) (q : Queue) : (s.setQueue g q).resetHeld = s.resetHeld := rfl
@[simp] theorem State.link_setQueue (s : State) (g : GateNo) (q : Queue) : (s.setQueue g q).link = s.link := rfl
@[simp] theorem State.slots_setQueue (s : State) (g : GateNo) (q : Queue) : (s.setQueue g q).slots = s.slots := rfl
@[simp] theorem State.lock_setQueue (s : State) (g : GateNo) (q : Queue) : (s.setQueue g q).lock = s.lock := rfl
@[simp] theorem State.arbitration_setQueue (s : State) (g : GateNo) (q : Queue) : (s.setQueue g q).arbitration = s.arbitration := rfl
@[simp] theorem State.units_setQueue (s : State) (g : GateNo) (q : Queue) : (s.setQueue g q).units = s.units := rfl
@[simp] theorem State.startQueue_setQueue (s : State) (g : GateNo) (q : Queue) : (s.setQueue g q).startQueue = s.startQueue := rfl
@[simp] theorem State.gates_setQueue (s : State) (g : GateNo) (q : Queue) : (s.setQueue g q).gates = s.gates := rfl
@[simp] theorem State.tide_setQueue (s : State) (g : GateNo) (q : Queue) : (s.setQueue g q).tide = s.tide := rfl
@[simp] theorem State.envelope_setQueue (s : State) (g : GateNo) (q : Queue) : (s.setQueue g q).envelope = s.envelope := rfl
@[simp] theorem State.stage_setQueue (s : State) (g : GateNo) (q : Queue) : (s.setQueue g q).stage = s.stage := rfl
@[simp] theorem State.definition_setQueue (s : State) (g : GateNo) (q : Queue) : (s.setQueue g q).definition = s.definition := rfl
@[simp] theorem State.runner_setQueue (s : State) (g : GateNo) (q : Queue) : (s.setQueue g q).runner = s.runner := rfl
@[simp] theorem State.inputs_setQueue (s : State) (g : GateNo) (q : Queue) : (s.setQueue g q).inputs = s.inputs := rfl
@[simp] theorem State.marks_setQueue (s : State) (g : GateNo) (q : Queue) : (s.setQueue g q).marks = s.marks := rfl
@[simp] theorem State.freeCount_setQueue (s : State) (g : GateNo) (q : Queue) : (s.setQueue g q).freeCount = s.freeCount := rfl
@[simp] theorem State.pending_setQueue (s : State) (g : GateNo) (q : Queue) : (s.setQueue g q).pending = s.pending := rfl

@[simp] theorem State.mode_setLink (s : State) (l : Link) : (s.setLink l).mode = s.mode := rfl
@[simp] theorem State.flavour_setLink (s : State) (l : Link) : (s.setLink l).flavour = s.flavour := rfl
@[simp] theorem State.clock_setLink (s : State) (l : Link) : (s.setLink l).clock = s.clock := rfl
@[simp] theorem State.resetHeld_setLink (s : State) (l : Link) : (s.setLink l).resetHeld = s.resetHeld := rfl
@[simp] theorem State.link_setLink (s : State) (l : Link) : (s.setLink l).link = l := rfl
@[simp] theorem State.slots_setLink (s : State) (l : Link) : (s.setLink l).slots = s.slots := rfl
@[simp] theorem State.lock_setLink (s : State) (l : Link) : (s.setLink l).lock = s.lock := rfl
@[simp] theorem State.arbitration_setLink (s : State) (l : Link) : (s.setLink l).arbitration = s.arbitration := rfl
@[simp] theorem State.units_setLink (s : State) (l : Link) : (s.setLink l).units = s.units := rfl
@[simp] theorem State.startQueue_setLink (s : State) (l : Link) : (s.setLink l).startQueue = s.startQueue := rfl
@[simp] theorem State.gates_setLink (s : State) (l : Link) : (s.setLink l).gates = s.gates := rfl
@[simp] theorem State.tide_setLink (s : State) (l : Link) : (s.setLink l).tide = s.tide := rfl
@[simp] theorem State.envelope_setLink (s : State) (l : Link) : (s.setLink l).envelope = s.envelope := rfl
@[simp] theorem State.queues_setLink (s : State) (l : Link) : (s.setLink l).queues = s.queues := rfl
@[simp] theorem State.stage_setLink (s : State) (l : Link) : (s.setLink l).stage = s.stage := rfl
@[simp] theorem State.definition_setLink (s : State) (l : Link) : (s.setLink l).definition = s.definition := rfl
@[simp] theorem State.runner_setLink (s : State) (l : Link) : (s.setLink l).runner = s.runner := rfl
@[simp] theorem State.inputs_setLink (s : State) (l : Link) : (s.setLink l).inputs = s.inputs := rfl
@[simp] theorem State.marks_setLink (s : State) (l : Link) : (s.setLink l).marks = s.marks := rfl
@[simp] theorem State.freeCount_setLink (s : State) (l : Link) : (s.setLink l).freeCount = s.freeCount := rfl
@[simp] theorem State.pending_setLink (s : State) (l : Link) : (s.setLink l).pending = s.pending := rfl

@[simp] theorem State.mode_setRunner (s : State) (r : Runner) : (s.setRunner r).mode = s.mode := rfl
@[simp] theorem State.flavour_setRunner (s : State) (r : Runner) : (s.setRunner r).flavour = s.flavour := rfl
@[simp] theorem State.clock_setRunner (s : State) (r : Runner) : (s.setRunner r).clock = s.clock := rfl
@[simp] theorem State.resetHeld_setRunner (s : State) (r : Runner) : (s.setRunner r).resetHeld = s.resetHeld := rfl
@[simp] theorem State.link_setRunner (s : State) (r : Runner) : (s.setRunner r).link = s.link := rfl
@[simp] theorem State.slots_setRunner (s : State) (r : Runner) : (s.setRunner r).slots = s.slots := rfl
@[simp] theorem State.lock_setRunner (s : State) (r : Runner) : (s.setRunner r).lock = s.lock := rfl
@[simp] theorem State.arbitration_setRunner (s : State) (r : Runner) : (s.setRunner r).arbitration = s.arbitration := rfl
@[simp] theorem State.units_setRunner (s : State) (r : Runner) : (s.setRunner r).units = s.units := rfl
@[simp] theorem State.startQueue_setRunner (s : State) (r : Runner) : (s.setRunner r).startQueue = s.startQueue := rfl
@[simp] theorem State.gates_setRunner (s : State) (r : Runner) : (s.setRunner r).gates = s.gates := rfl
@[simp] theorem State.tide_setRunner (s : State) (r : Runner) : (s.setRunner r).tide = s.tide := rfl
@[simp] theorem State.envelope_setRunner (s : State) (r : Runner) : (s.setRunner r).envelope = s.envelope := rfl
@[simp] theorem State.queues_setRunner (s : State) (r : Runner) : (s.setRunner r).queues = s.queues := rfl
@[simp] theorem State.stage_setRunner (s : State) (r : Runner) : (s.setRunner r).stage = s.stage := rfl
@[simp] theorem State.definition_setRunner (s : State) (r : Runner) : (s.setRunner r).definition = s.definition := rfl
@[simp] theorem State.runner_setRunner (s : State) (r : Runner) : (s.setRunner r).runner = r := rfl
@[simp] theorem State.inputs_setRunner (s : State) (r : Runner) : (s.setRunner r).inputs = s.inputs := rfl
@[simp] theorem State.marks_setRunner (s : State) (r : Runner) : (s.setRunner r).marks = s.marks := rfl
@[simp] theorem State.freeCount_setRunner (s : State) (r : Runner) : (s.setRunner r).freeCount = s.freeCount := rfl
@[simp] theorem State.pending_setRunner (s : State) (r : Runner) : (s.setRunner r).pending = s.pending := rfl

@[simp] theorem State.mode_setLock (s : State) (k : Option SlotNo) : (s.setLock k).mode = s.mode := rfl
@[simp] theorem State.flavour_setLock (s : State) (k : Option SlotNo) : (s.setLock k).flavour = s.flavour := rfl
@[simp] theorem State.clock_setLock (s : State) (k : Option SlotNo) : (s.setLock k).clock = s.clock := rfl
@[simp] theorem State.resetHeld_setLock (s : State) (k : Option SlotNo) : (s.setLock k).resetHeld = s.resetHeld := rfl
@[simp] theorem State.link_setLock (s : State) (k : Option SlotNo) : (s.setLock k).link = s.link := rfl
@[simp] theorem State.slots_setLock (s : State) (k : Option SlotNo) : (s.setLock k).slots = s.slots := rfl
@[simp] theorem State.lock_setLock (s : State) (k : Option SlotNo) : (s.setLock k).lock = k := rfl
@[simp] theorem State.arbitration_setLock (s : State) (k : Option SlotNo) : (s.setLock k).arbitration = s.arbitration := rfl
@[simp] theorem State.units_setLock (s : State) (k : Option SlotNo) : (s.setLock k).units = s.units := rfl
@[simp] theorem State.startQueue_setLock (s : State) (k : Option SlotNo) : (s.setLock k).startQueue = s.startQueue := rfl
@[simp] theorem State.gates_setLock (s : State) (k : Option SlotNo) : (s.setLock k).gates = s.gates := rfl
@[simp] theorem State.tide_setLock (s : State) (k : Option SlotNo) : (s.setLock k).tide = s.tide := rfl
@[simp] theorem State.envelope_setLock (s : State) (k : Option SlotNo) : (s.setLock k).envelope = s.envelope := rfl
@[simp] theorem State.queues_setLock (s : State) (k : Option SlotNo) : (s.setLock k).queues = s.queues := rfl
@[simp] theorem State.stage_setLock (s : State) (k : Option SlotNo) : (s.setLock k).stage = s.stage := rfl
@[simp] theorem State.definition_setLock (s : State) (k : Option SlotNo) : (s.setLock k).definition = s.definition := rfl
@[simp] theorem State.runner_setLock (s : State) (k : Option SlotNo) : (s.setLock k).runner = s.runner := rfl
@[simp] theorem State.inputs_setLock (s : State) (k : Option SlotNo) : (s.setLock k).inputs = s.inputs := rfl
@[simp] theorem State.marks_setLock (s : State) (k : Option SlotNo) : (s.setLock k).marks = s.marks := rfl
@[simp] theorem State.freeCount_setLock (s : State) (k : Option SlotNo) : (s.setLock k).freeCount = s.freeCount := rfl
@[simp] theorem State.pending_setLock (s : State) (k : Option SlotNo) : (s.setLock k).pending = s.pending := rfl

@[simp] theorem State.mode_setStartQueue (s : State) (q : List UnitNo) : (s.setStartQueue q).mode = s.mode := rfl
@[simp] theorem State.flavour_setStartQueue (s : State) (q : List UnitNo) : (s.setStartQueue q).flavour = s.flavour := rfl
@[simp] theorem State.clock_setStartQueue (s : State) (q : List UnitNo) : (s.setStartQueue q).clock = s.clock := rfl
@[simp] theorem State.resetHeld_setStartQueue (s : State) (q : List UnitNo) : (s.setStartQueue q).resetHeld = s.resetHeld := rfl
@[simp] theorem State.link_setStartQueue (s : State) (q : List UnitNo) : (s.setStartQueue q).link = s.link := rfl
@[simp] theorem State.slots_setStartQueue (s : State) (q : List UnitNo) : (s.setStartQueue q).slots = s.slots := rfl
@[simp] theorem State.lock_setStartQueue (s : State) (q : List UnitNo) : (s.setStartQueue q).lock = s.lock := rfl
@[simp] theorem State.arbitration_setStartQueue (s : State) (q : List UnitNo) : (s.setStartQueue q).arbitration = s.arbitration := rfl
@[simp] theorem State.units_setStartQueue (s : State) (q : List UnitNo) : (s.setStartQueue q).units = s.units := rfl
@[simp] theorem State.startQueue_setStartQueue (s : State) (q : List UnitNo) : (s.setStartQueue q).startQueue = q := rfl
@[simp] theorem State.gates_setStartQueue (s : State) (q : List UnitNo) : (s.setStartQueue q).gates = s.gates := rfl
@[simp] theorem State.tide_setStartQueue (s : State) (q : List UnitNo) : (s.setStartQueue q).tide = s.tide := rfl
@[simp] theorem State.envelope_setStartQueue (s : State) (q : List UnitNo) : (s.setStartQueue q).envelope = s.envelope := rfl
@[simp] theorem State.queues_setStartQueue (s : State) (q : List UnitNo) : (s.setStartQueue q).queues = s.queues := rfl
@[simp] theorem State.stage_setStartQueue (s : State) (q : List UnitNo) : (s.setStartQueue q).stage = s.stage := rfl
@[simp] theorem State.definition_setStartQueue (s : State) (q : List UnitNo) : (s.setStartQueue q).definition = s.definition := rfl
@[simp] theorem State.runner_setStartQueue (s : State) (q : List UnitNo) : (s.setStartQueue q).runner = s.runner := rfl
@[simp] theorem State.inputs_setStartQueue (s : State) (q : List UnitNo) : (s.setStartQueue q).inputs = s.inputs := rfl
@[simp] theorem State.marks_setStartQueue (s : State) (q : List UnitNo) : (s.setStartQueue q).marks = s.marks := rfl
@[simp] theorem State.freeCount_setStartQueue (s : State) (q : List UnitNo) : (s.setStartQueue q).freeCount = s.freeCount := rfl
@[simp] theorem State.pending_setStartQueue (s : State) (q : List UnitNo) : (s.setStartQueue q).pending = s.pending := rfl

@[simp] theorem State.mode_setTide (s : State) (t : Tide) : (s.setTide t).mode = s.mode := rfl
@[simp] theorem State.flavour_setTide (s : State) (t : Tide) : (s.setTide t).flavour = s.flavour := rfl
@[simp] theorem State.clock_setTide (s : State) (t : Tide) : (s.setTide t).clock = s.clock := rfl
@[simp] theorem State.resetHeld_setTide (s : State) (t : Tide) : (s.setTide t).resetHeld = s.resetHeld := rfl
@[simp] theorem State.link_setTide (s : State) (t : Tide) : (s.setTide t).link = s.link := rfl
@[simp] theorem State.slots_setTide (s : State) (t : Tide) : (s.setTide t).slots = s.slots := rfl
@[simp] theorem State.lock_setTide (s : State) (t : Tide) : (s.setTide t).lock = s.lock := rfl
@[simp] theorem State.arbitration_setTide (s : State) (t : Tide) : (s.setTide t).arbitration = s.arbitration := rfl
@[simp] theorem State.units_setTide (s : State) (t : Tide) : (s.setTide t).units = s.units := rfl
@[simp] theorem State.startQueue_setTide (s : State) (t : Tide) : (s.setTide t).startQueue = s.startQueue := rfl
@[simp] theorem State.gates_setTide (s : State) (t : Tide) : (s.setTide t).gates = s.gates := rfl
@[simp] theorem State.tide_setTide (s : State) (t : Tide) : (s.setTide t).tide = t := rfl
@[simp] theorem State.envelope_setTide (s : State) (t : Tide) : (s.setTide t).envelope = s.envelope := rfl
@[simp] theorem State.queues_setTide (s : State) (t : Tide) : (s.setTide t).queues = s.queues := rfl
@[simp] theorem State.stage_setTide (s : State) (t : Tide) : (s.setTide t).stage = s.stage := rfl
@[simp] theorem State.definition_setTide (s : State) (t : Tide) : (s.setTide t).definition = s.definition := rfl
@[simp] theorem State.runner_setTide (s : State) (t : Tide) : (s.setTide t).runner = s.runner := rfl
@[simp] theorem State.inputs_setTide (s : State) (t : Tide) : (s.setTide t).inputs = s.inputs := rfl
@[simp] theorem State.marks_setTide (s : State) (t : Tide) : (s.setTide t).marks = s.marks := rfl
@[simp] theorem State.freeCount_setTide (s : State) (t : Tide) : (s.setTide t).freeCount = s.freeCount := rfl
@[simp] theorem State.pending_setTide (s : State) (t : Tide) : (s.setTide t).pending = s.pending := rfl

@[simp] theorem State.mode_setEnvelope (s : State) (e : Envelope) : (s.setEnvelope e).mode = s.mode := rfl
@[simp] theorem State.flavour_setEnvelope (s : State) (e : Envelope) : (s.setEnvelope e).flavour = s.flavour := rfl
@[simp] theorem State.clock_setEnvelope (s : State) (e : Envelope) : (s.setEnvelope e).clock = s.clock := rfl
@[simp] theorem State.resetHeld_setEnvelope (s : State) (e : Envelope) : (s.setEnvelope e).resetHeld = s.resetHeld := rfl
@[simp] theorem State.link_setEnvelope (s : State) (e : Envelope) : (s.setEnvelope e).link = s.link := rfl
@[simp] theorem State.slots_setEnvelope (s : State) (e : Envelope) : (s.setEnvelope e).slots = s.slots := rfl
@[simp] theorem State.lock_setEnvelope (s : State) (e : Envelope) : (s.setEnvelope e).lock = s.lock := rfl
@[simp] theorem State.arbitration_setEnvelope (s : State) (e : Envelope) : (s.setEnvelope e).arbitration = s.arbitration := rfl
@[simp] theorem State.units_setEnvelope (s : State) (e : Envelope) : (s.setEnvelope e).units = s.units := rfl
@[simp] theorem State.startQueue_setEnvelope (s : State) (e : Envelope) : (s.setEnvelope e).startQueue = s.startQueue := rfl
@[simp] theorem State.gates_setEnvelope (s : State) (e : Envelope) : (s.setEnvelope e).gates = s.gates := rfl
@[simp] theorem State.tide_setEnvelope (s : State) (e : Envelope) : (s.setEnvelope e).tide = s.tide := rfl
@[simp] theorem State.envelope_setEnvelope (s : State) (e : Envelope) : (s.setEnvelope e).envelope = e := rfl
@[simp] theorem State.queues_setEnvelope (s : State) (e : Envelope) : (s.setEnvelope e).queues = s.queues := rfl
@[simp] theorem State.stage_setEnvelope (s : State) (e : Envelope) : (s.setEnvelope e).stage = s.stage := rfl
@[simp] theorem State.definition_setEnvelope (s : State) (e : Envelope) : (s.setEnvelope e).definition = s.definition := rfl
@[simp] theorem State.runner_setEnvelope (s : State) (e : Envelope) : (s.setEnvelope e).runner = s.runner := rfl
@[simp] theorem State.inputs_setEnvelope (s : State) (e : Envelope) : (s.setEnvelope e).inputs = s.inputs := rfl
@[simp] theorem State.marks_setEnvelope (s : State) (e : Envelope) : (s.setEnvelope e).marks = s.marks := rfl
@[simp] theorem State.freeCount_setEnvelope (s : State) (e : Envelope) : (s.setEnvelope e).freeCount = s.freeCount := rfl
@[simp] theorem State.pending_setEnvelope (s : State) (e : Envelope) : (s.setEnvelope e).pending = s.pending := rfl

@[simp] theorem State.mode_setStage (s : State) (t : Stage) : (s.setStage t).mode = s.mode := rfl
@[simp] theorem State.flavour_setStage (s : State) (t : Stage) : (s.setStage t).flavour = s.flavour := rfl
@[simp] theorem State.clock_setStage (s : State) (t : Stage) : (s.setStage t).clock = s.clock := rfl
@[simp] theorem State.resetHeld_setStage (s : State) (t : Stage) : (s.setStage t).resetHeld = s.resetHeld := rfl
@[simp] theorem State.link_setStage (s : State) (t : Stage) : (s.setStage t).link = s.link := rfl
@[simp] theorem State.slots_setStage (s : State) (t : Stage) : (s.setStage t).slots = s.slots := rfl
@[simp] theorem State.lock_setStage (s : State) (t : Stage) : (s.setStage t).lock = s.lock := rfl
@[simp] theorem State.arbitration_setStage (s : State) (t : Stage) : (s.setStage t).arbitration = s.arbitration := rfl
@[simp] theorem State.units_setStage (s : State) (t : Stage) : (s.setStage t).units = s.units := rfl
@[simp] theorem State.startQueue_setStage (s : State) (t : Stage) : (s.setStage t).startQueue = s.startQueue := rfl
@[simp] theorem State.gates_setStage (s : State) (t : Stage) : (s.setStage t).gates = s.gates := rfl
@[simp] theorem State.tide_setStage (s : State) (t : Stage) : (s.setStage t).tide = s.tide := rfl
@[simp] theorem State.envelope_setStage (s : State) (t : Stage) : (s.setStage t).envelope = s.envelope := rfl
@[simp] theorem State.queues_setStage (s : State) (t : Stage) : (s.setStage t).queues = s.queues := rfl
@[simp] theorem State.stage_setStage (s : State) (t : Stage) : (s.setStage t).stage = t := rfl
@[simp] theorem State.definition_setStage (s : State) (t : Stage) : (s.setStage t).definition = s.definition := rfl
@[simp] theorem State.runner_setStage (s : State) (t : Stage) : (s.setStage t).runner = s.runner := rfl
@[simp] theorem State.inputs_setStage (s : State) (t : Stage) : (s.setStage t).inputs = s.inputs := rfl
@[simp] theorem State.marks_setStage (s : State) (t : Stage) : (s.setStage t).marks = s.marks := rfl
@[simp] theorem State.freeCount_setStage (s : State) (t : Stage) : (s.setStage t).freeCount = s.freeCount := rfl
@[simp] theorem State.pending_setStage (s : State) (t : Stage) : (s.setStage t).pending = s.pending := rfl

@[simp] theorem State.mode_setUnitInput (s : State) (u : UnitNo) (i : UnitInputs) : (s.setUnitInput u i).mode = s.mode := rfl
@[simp] theorem State.flavour_setUnitInput (s : State) (u : UnitNo) (i : UnitInputs) : (s.setUnitInput u i).flavour = s.flavour := rfl
@[simp] theorem State.clock_setUnitInput (s : State) (u : UnitNo) (i : UnitInputs) : (s.setUnitInput u i).clock = s.clock := rfl
@[simp] theorem State.resetHeld_setUnitInput (s : State) (u : UnitNo) (i : UnitInputs) : (s.setUnitInput u i).resetHeld = s.resetHeld := rfl
@[simp] theorem State.link_setUnitInput (s : State) (u : UnitNo) (i : UnitInputs) : (s.setUnitInput u i).link = s.link := rfl
@[simp] theorem State.slots_setUnitInput (s : State) (u : UnitNo) (i : UnitInputs) : (s.setUnitInput u i).slots = s.slots := rfl
@[simp] theorem State.lock_setUnitInput (s : State) (u : UnitNo) (i : UnitInputs) : (s.setUnitInput u i).lock = s.lock := rfl
@[simp] theorem State.arbitration_setUnitInput (s : State) (u : UnitNo) (i : UnitInputs) : (s.setUnitInput u i).arbitration = s.arbitration := rfl
@[simp] theorem State.units_setUnitInput (s : State) (u : UnitNo) (i : UnitInputs) : (s.setUnitInput u i).units = s.units := rfl
@[simp] theorem State.startQueue_setUnitInput (s : State) (u : UnitNo) (i : UnitInputs) : (s.setUnitInput u i).startQueue = s.startQueue := rfl
@[simp] theorem State.gates_setUnitInput (s : State) (u : UnitNo) (i : UnitInputs) : (s.setUnitInput u i).gates = s.gates := rfl
@[simp] theorem State.tide_setUnitInput (s : State) (u : UnitNo) (i : UnitInputs) : (s.setUnitInput u i).tide = s.tide := rfl
@[simp] theorem State.envelope_setUnitInput (s : State) (u : UnitNo) (i : UnitInputs) : (s.setUnitInput u i).envelope = s.envelope := rfl
@[simp] theorem State.queues_setUnitInput (s : State) (u : UnitNo) (i : UnitInputs) : (s.setUnitInput u i).queues = s.queues := rfl
@[simp] theorem State.stage_setUnitInput (s : State) (u : UnitNo) (i : UnitInputs) : (s.setUnitInput u i).stage = s.stage := rfl
@[simp] theorem State.definition_setUnitInput (s : State) (u : UnitNo) (i : UnitInputs) : (s.setUnitInput u i).definition = s.definition := rfl
@[simp] theorem State.runner_setUnitInput (s : State) (u : UnitNo) (i : UnitInputs) : (s.setUnitInput u i).runner = s.runner := rfl
@[simp] theorem State.marks_setUnitInput (s : State) (u : UnitNo) (i : UnitInputs) : (s.setUnitInput u i).marks = s.marks := rfl
@[simp] theorem State.freeCount_setUnitInput (s : State) (u : UnitNo) (i : UnitInputs) : (s.setUnitInput u i).freeCount = s.freeCount := rfl
@[simp] theorem State.pending_setUnitInput (s : State) (u : UnitNo) (i : UnitInputs) : (s.setUnitInput u i).pending = s.pending := rfl

@[simp] theorem State.mode_setPinInput (s : State) (g : GateNo) (p : PinInputs) : (s.setPinInput g p).mode = s.mode := rfl
@[simp] theorem State.flavour_setPinInput (s : State) (g : GateNo) (p : PinInputs) : (s.setPinInput g p).flavour = s.flavour := rfl
@[simp] theorem State.clock_setPinInput (s : State) (g : GateNo) (p : PinInputs) : (s.setPinInput g p).clock = s.clock := rfl
@[simp] theorem State.resetHeld_setPinInput (s : State) (g : GateNo) (p : PinInputs) : (s.setPinInput g p).resetHeld = s.resetHeld := rfl
@[simp] theorem State.link_setPinInput (s : State) (g : GateNo) (p : PinInputs) : (s.setPinInput g p).link = s.link := rfl
@[simp] theorem State.slots_setPinInput (s : State) (g : GateNo) (p : PinInputs) : (s.setPinInput g p).slots = s.slots := rfl
@[simp] theorem State.lock_setPinInput (s : State) (g : GateNo) (p : PinInputs) : (s.setPinInput g p).lock = s.lock := rfl
@[simp] theorem State.arbitration_setPinInput (s : State) (g : GateNo) (p : PinInputs) : (s.setPinInput g p).arbitration = s.arbitration := rfl
@[simp] theorem State.units_setPinInput (s : State) (g : GateNo) (p : PinInputs) : (s.setPinInput g p).units = s.units := rfl
@[simp] theorem State.startQueue_setPinInput (s : State) (g : GateNo) (p : PinInputs) : (s.setPinInput g p).startQueue = s.startQueue := rfl
@[simp] theorem State.gates_setPinInput (s : State) (g : GateNo) (p : PinInputs) : (s.setPinInput g p).gates = s.gates := rfl
@[simp] theorem State.tide_setPinInput (s : State) (g : GateNo) (p : PinInputs) : (s.setPinInput g p).tide = s.tide := rfl
@[simp] theorem State.envelope_setPinInput (s : State) (g : GateNo) (p : PinInputs) : (s.setPinInput g p).envelope = s.envelope := rfl
@[simp] theorem State.queues_setPinInput (s : State) (g : GateNo) (p : PinInputs) : (s.setPinInput g p).queues = s.queues := rfl
@[simp] theorem State.stage_setPinInput (s : State) (g : GateNo) (p : PinInputs) : (s.setPinInput g p).stage = s.stage := rfl
@[simp] theorem State.definition_setPinInput (s : State) (g : GateNo) (p : PinInputs) : (s.setPinInput g p).definition = s.definition := rfl
@[simp] theorem State.runner_setPinInput (s : State) (g : GateNo) (p : PinInputs) : (s.setPinInput g p).runner = s.runner := rfl
@[simp] theorem State.marks_setPinInput (s : State) (g : GateNo) (p : PinInputs) : (s.setPinInput g p).marks = s.marks := rfl
@[simp] theorem State.freeCount_setPinInput (s : State) (g : GateNo) (p : PinInputs) : (s.setPinInput g p).freeCount = s.freeCount := rfl
@[simp] theorem State.pending_setPinInput (s : State) (g : GateNo) (p : PinInputs) : (s.setPinInput g p).pending = s.pending := rfl

@[simp] theorem State.mode_setMode (s : State) (m : DeviceMode) (f : Option Flavour) : (s.setMode m f).mode = m := rfl
@[simp] theorem State.flavour_setMode (s : State) (m : DeviceMode) (f : Option Flavour) : (s.setMode m f).flavour = f := rfl
@[simp] theorem State.clock_setMode (s : State) (m : DeviceMode) (f : Option Flavour) : (s.setMode m f).clock = s.clock := rfl
@[simp] theorem State.resetHeld_setMode (s : State) (m : DeviceMode) (f : Option Flavour) : (s.setMode m f).resetHeld = s.resetHeld := rfl
@[simp] theorem State.link_setMode (s : State) (m : DeviceMode) (f : Option Flavour) : (s.setMode m f).link = s.link := rfl
@[simp] theorem State.slots_setMode (s : State) (m : DeviceMode) (f : Option Flavour) : (s.setMode m f).slots = s.slots := rfl
@[simp] theorem State.lock_setMode (s : State) (m : DeviceMode) (f : Option Flavour) : (s.setMode m f).lock = s.lock := rfl
@[simp] theorem State.arbitration_setMode (s : State) (m : DeviceMode) (f : Option Flavour) : (s.setMode m f).arbitration = s.arbitration := rfl
@[simp] theorem State.units_setMode (s : State) (m : DeviceMode) (f : Option Flavour) : (s.setMode m f).units = s.units := rfl
@[simp] theorem State.startQueue_setMode (s : State) (m : DeviceMode) (f : Option Flavour) : (s.setMode m f).startQueue = s.startQueue := rfl
@[simp] theorem State.gates_setMode (s : State) (m : DeviceMode) (f : Option Flavour) : (s.setMode m f).gates = s.gates := rfl
@[simp] theorem State.tide_setMode (s : State) (m : DeviceMode) (f : Option Flavour) : (s.setMode m f).tide = s.tide := rfl
@[simp] theorem State.envelope_setMode (s : State) (m : DeviceMode) (f : Option Flavour) : (s.setMode m f).envelope = s.envelope := rfl
@[simp] theorem State.queues_setMode (s : State) (m : DeviceMode) (f : Option Flavour) : (s.setMode m f).queues = s.queues := rfl
@[simp] theorem State.stage_setMode (s : State) (m : DeviceMode) (f : Option Flavour) : (s.setMode m f).stage = s.stage := rfl
@[simp] theorem State.definition_setMode (s : State) (m : DeviceMode) (f : Option Flavour) : (s.setMode m f).definition = s.definition := rfl
@[simp] theorem State.runner_setMode (s : State) (m : DeviceMode) (f : Option Flavour) : (s.setMode m f).runner = s.runner := rfl
@[simp] theorem State.inputs_setMode (s : State) (m : DeviceMode) (f : Option Flavour) : (s.setMode m f).inputs = s.inputs := rfl
@[simp] theorem State.marks_setMode (s : State) (m : DeviceMode) (f : Option Flavour) : (s.setMode m f).marks = s.marks := rfl
@[simp] theorem State.freeCount_setMode (s : State) (m : DeviceMode) (f : Option Flavour) : (s.setMode m f).freeCount = s.freeCount := rfl
@[simp] theorem State.pending_setMode (s : State) (m : DeviceMode) (f : Option Flavour) : (s.setMode m f).pending = s.pending := rfl

@[simp] theorem State.mode_openRound (s : State) : (s.openRound).mode = s.mode := rfl
@[simp] theorem State.flavour_openRound (s : State) : (s.openRound).flavour = s.flavour := rfl
@[simp] theorem State.clock_openRound (s : State) : (s.openRound).clock = s.clock := rfl
@[simp] theorem State.resetHeld_openRound (s : State) : (s.openRound).resetHeld = s.resetHeld := rfl
@[simp] theorem State.link_openRound (s : State) : (s.openRound).link = s.link := rfl
@[simp] theorem State.slots_openRound (s : State) : (s.openRound).slots = s.slots := rfl
@[simp] theorem State.lock_openRound (s : State) : (s.openRound).lock = s.lock := rfl
@[simp] theorem State.arbitration_openRound (s : State) : (s.openRound).arbitration = s.arbitration := rfl
@[simp] theorem State.units_openRound (s : State) : (s.openRound).units = s.units := rfl
@[simp] theorem State.startQueue_openRound (s : State) : (s.openRound).startQueue = s.startQueue := rfl
@[simp] theorem State.gates_openRound (s : State) : (s.openRound).gates = s.gates := rfl
@[simp] theorem State.tide_openRound (s : State) : (s.openRound).tide = s.tide := rfl
@[simp] theorem State.envelope_openRound (s : State) : (s.openRound).envelope = s.envelope := rfl
@[simp] theorem State.queues_openRound (s : State) : (s.openRound).queues = s.queues := rfl
@[simp] theorem State.stage_openRound (s : State) : (s.openRound).stage = s.stage := rfl
@[simp] theorem State.definition_openRound (s : State) : (s.openRound).definition = s.definition := rfl
@[simp] theorem State.runner_openRound (s : State) : (s.openRound).runner = s.runner := rfl
@[simp] theorem State.inputs_openRound (s : State) : (s.openRound).inputs = s.inputs := rfl
@[simp] theorem State.marks_openRound (s : State) : (s.openRound).marks = ⟨true, s.marks.reportDue⟩ := rfl
@[simp] theorem State.freeCount_openRound (s : State) : (s.openRound).freeCount = s.freeCount := rfl
@[simp] theorem State.pending_openRound (s : State) : (s.openRound).pending = s.pending := rfl

@[simp] theorem State.mode_closeRound (s : State) : (s.closeRound).mode = s.mode := rfl
@[simp] theorem State.flavour_closeRound (s : State) : (s.closeRound).flavour = s.flavour := rfl
@[simp] theorem State.clock_closeRound (s : State) : (s.closeRound).clock = s.clock := rfl
@[simp] theorem State.resetHeld_closeRound (s : State) : (s.closeRound).resetHeld = s.resetHeld := rfl
@[simp] theorem State.link_closeRound (s : State) : (s.closeRound).link = s.link := rfl
@[simp] theorem State.slots_closeRound (s : State) : (s.closeRound).slots = s.slots := rfl
@[simp] theorem State.lock_closeRound (s : State) : (s.closeRound).lock = s.lock := rfl
@[simp] theorem State.arbitration_closeRound (s : State) : (s.closeRound).arbitration = s.arbitration := rfl
@[simp] theorem State.units_closeRound (s : State) : (s.closeRound).units = s.units := rfl
@[simp] theorem State.startQueue_closeRound (s : State) : (s.closeRound).startQueue = s.startQueue := rfl
@[simp] theorem State.gates_closeRound (s : State) : (s.closeRound).gates = s.gates := rfl
@[simp] theorem State.tide_closeRound (s : State) : (s.closeRound).tide = s.tide := rfl
@[simp] theorem State.envelope_closeRound (s : State) : (s.closeRound).envelope = s.envelope := rfl
@[simp] theorem State.queues_closeRound (s : State) : (s.closeRound).queues = s.queues := rfl
@[simp] theorem State.stage_closeRound (s : State) : (s.closeRound).stage = s.stage := rfl
@[simp] theorem State.definition_closeRound (s : State) : (s.closeRound).definition = s.definition := rfl
@[simp] theorem State.runner_closeRound (s : State) : (s.closeRound).runner = s.runner := rfl
@[simp] theorem State.inputs_closeRound (s : State) : (s.closeRound).inputs = s.inputs := rfl
@[simp] theorem State.marks_closeRound (s : State) : (s.closeRound).marks = ⟨false, s.marks.reportDue⟩ := rfl
@[simp] theorem State.freeCount_closeRound (s : State) : (s.closeRound).freeCount = s.freeCount := rfl
@[simp] theorem State.pending_closeRound (s : State) : (s.closeRound).pending = s.pending := rfl

@[simp] theorem State.mode_markReport (s : State) (b : Bool) : (s.markReport b).mode = s.mode := rfl
@[simp] theorem State.flavour_markReport (s : State) (b : Bool) : (s.markReport b).flavour = s.flavour := rfl
@[simp] theorem State.clock_markReport (s : State) (b : Bool) : (s.markReport b).clock = s.clock := rfl
@[simp] theorem State.resetHeld_markReport (s : State) (b : Bool) : (s.markReport b).resetHeld = s.resetHeld := rfl
@[simp] theorem State.link_markReport (s : State) (b : Bool) : (s.markReport b).link = s.link := rfl
@[simp] theorem State.slots_markReport (s : State) (b : Bool) : (s.markReport b).slots = s.slots := rfl
@[simp] theorem State.lock_markReport (s : State) (b : Bool) : (s.markReport b).lock = s.lock := rfl
@[simp] theorem State.arbitration_markReport (s : State) (b : Bool) : (s.markReport b).arbitration = s.arbitration := rfl
@[simp] theorem State.units_markReport (s : State) (b : Bool) : (s.markReport b).units = s.units := rfl
@[simp] theorem State.startQueue_markReport (s : State) (b : Bool) : (s.markReport b).startQueue = s.startQueue := rfl
@[simp] theorem State.gates_markReport (s : State) (b : Bool) : (s.markReport b).gates = s.gates := rfl
@[simp] theorem State.tide_markReport (s : State) (b : Bool) : (s.markReport b).tide = s.tide := rfl
@[simp] theorem State.envelope_markReport (s : State) (b : Bool) : (s.markReport b).envelope = s.envelope := rfl
@[simp] theorem State.queues_markReport (s : State) (b : Bool) : (s.markReport b).queues = s.queues := rfl
@[simp] theorem State.stage_markReport (s : State) (b : Bool) : (s.markReport b).stage = s.stage := rfl
@[simp] theorem State.definition_markReport (s : State) (b : Bool) : (s.markReport b).definition = s.definition := rfl
@[simp] theorem State.runner_markReport (s : State) (b : Bool) : (s.markReport b).runner = s.runner := rfl
@[simp] theorem State.inputs_markReport (s : State) (b : Bool) : (s.markReport b).inputs = s.inputs := rfl
@[simp] theorem State.marks_markReport (s : State) (b : Bool) : (s.markReport b).marks = ⟨s.marks.roundDue, b⟩ := rfl
@[simp] theorem State.freeCount_markReport (s : State) (b : Bool) : (s.markReport b).freeCount = s.freeCount := rfl
@[simp] theorem State.pending_markReport (s : State) (b : Bool) : (s.markReport b).pending = s.pending := rfl

@[simp] theorem State.mode_bump (s : State) : (s.bump).mode = s.mode := rfl
@[simp] theorem State.flavour_bump (s : State) : (s.bump).flavour = s.flavour := rfl
@[simp] theorem State.clock_bump (s : State) : (s.bump).clock = s.clock := rfl
@[simp] theorem State.resetHeld_bump (s : State) : (s.bump).resetHeld = s.resetHeld := rfl
@[simp] theorem State.link_bump (s : State) : (s.bump).link = s.link := rfl
@[simp] theorem State.slots_bump (s : State) : (s.bump).slots = s.slots := rfl
@[simp] theorem State.lock_bump (s : State) : (s.bump).lock = s.lock := rfl
@[simp] theorem State.arbitration_bump (s : State) : (s.bump).arbitration = s.arbitration := rfl
@[simp] theorem State.units_bump (s : State) : (s.bump).units = s.units := rfl
@[simp] theorem State.startQueue_bump (s : State) : (s.bump).startQueue = s.startQueue := rfl
@[simp] theorem State.gates_bump (s : State) : (s.bump).gates = s.gates := rfl
@[simp] theorem State.tide_bump (s : State) : (s.bump).tide = s.tide := rfl
@[simp] theorem State.envelope_bump (s : State) : (s.bump).envelope = s.envelope := rfl
@[simp] theorem State.queues_bump (s : State) : (s.bump).queues = s.queues := rfl
@[simp] theorem State.stage_bump (s : State) : (s.bump).stage = s.stage := rfl
@[simp] theorem State.definition_bump (s : State) : (s.bump).definition = s.definition := rfl
@[simp] theorem State.runner_bump (s : State) : (s.bump).runner = s.runner := rfl
@[simp] theorem State.inputs_bump (s : State) : (s.bump).inputs = s.inputs := rfl
@[simp] theorem State.marks_bump (s : State) : (s.bump).marks = s.marks := rfl
@[simp] theorem State.freeCount_bump (s : State) : (s.bump).freeCount = s.freeCount + 1 := rfl
@[simp] theorem State.pending_bump (s : State) : (s.bump).pending = s.pending := rfl

@[simp] theorem State.mode_notify (s : State) (n : Notice) : (s.notify n).mode = s.mode := rfl
@[simp] theorem State.flavour_notify (s : State) (n : Notice) : (s.notify n).flavour = s.flavour := rfl
@[simp] theorem State.clock_notify (s : State) (n : Notice) : (s.notify n).clock = s.clock := rfl
@[simp] theorem State.resetHeld_notify (s : State) (n : Notice) : (s.notify n).resetHeld = s.resetHeld := rfl
@[simp] theorem State.link_notify (s : State) (n : Notice) : (s.notify n).link = s.link.take n := rfl
@[simp] theorem State.slots_notify (s : State) (n : Notice) : (s.notify n).slots = s.slots := rfl
@[simp] theorem State.lock_notify (s : State) (n : Notice) : (s.notify n).lock = s.lock := rfl
@[simp] theorem State.arbitration_notify (s : State) (n : Notice) : (s.notify n).arbitration = s.arbitration := rfl
@[simp] theorem State.units_notify (s : State) (n : Notice) : (s.notify n).units = s.units := rfl
@[simp] theorem State.startQueue_notify (s : State) (n : Notice) : (s.notify n).startQueue = s.startQueue := rfl
@[simp] theorem State.gates_notify (s : State) (n : Notice) : (s.notify n).gates = s.gates := rfl
@[simp] theorem State.tide_notify (s : State) (n : Notice) : (s.notify n).tide = s.tide := rfl
@[simp] theorem State.envelope_notify (s : State) (n : Notice) : (s.notify n).envelope = s.envelope := rfl
@[simp] theorem State.queues_notify (s : State) (n : Notice) : (s.notify n).queues = s.queues := rfl
@[simp] theorem State.stage_notify (s : State) (n : Notice) : (s.notify n).stage = s.stage := rfl
@[simp] theorem State.definition_notify (s : State) (n : Notice) : (s.notify n).definition = s.definition := rfl
@[simp] theorem State.runner_notify (s : State) (n : Notice) : (s.notify n).runner = s.runner := rfl
@[simp] theorem State.inputs_notify (s : State) (n : Notice) : (s.notify n).inputs = s.inputs := rfl
@[simp] theorem State.marks_notify (s : State) (n : Notice) : (s.notify n).marks = s.marks := rfl
@[simp] theorem State.freeCount_notify (s : State) (n : Notice) : (s.notify n).freeCount = s.freeCount := rfl
@[simp] theorem State.pending_notify (s : State) (n : Notice) : (s.notify n).pending = s.pending := rfl

@[simp] theorem State.mode_placeReply (s : State) (r : Reply) : (s.placeReply r).mode = s.mode := rfl
@[simp] theorem State.flavour_placeReply (s : State) (r : Reply) : (s.placeReply r).flavour = s.flavour := rfl
@[simp] theorem State.clock_placeReply (s : State) (r : Reply) : (s.placeReply r).clock = s.clock := rfl
@[simp] theorem State.resetHeld_placeReply (s : State) (r : Reply) : (s.placeReply r).resetHeld = s.resetHeld := rfl
@[simp] theorem State.link_placeReply (s : State) (r : Reply) : (s.placeReply r).link = s.link.place r := rfl
@[simp] theorem State.slots_placeReply (s : State) (r : Reply) : (s.placeReply r).slots = s.slots := rfl
@[simp] theorem State.lock_placeReply (s : State) (r : Reply) : (s.placeReply r).lock = s.lock := rfl
@[simp] theorem State.arbitration_placeReply (s : State) (r : Reply) : (s.placeReply r).arbitration = s.arbitration := rfl
@[simp] theorem State.units_placeReply (s : State) (r : Reply) : (s.placeReply r).units = s.units := rfl
@[simp] theorem State.startQueue_placeReply (s : State) (r : Reply) : (s.placeReply r).startQueue = s.startQueue := rfl
@[simp] theorem State.gates_placeReply (s : State) (r : Reply) : (s.placeReply r).gates = s.gates := rfl
@[simp] theorem State.tide_placeReply (s : State) (r : Reply) : (s.placeReply r).tide = s.tide := rfl
@[simp] theorem State.envelope_placeReply (s : State) (r : Reply) : (s.placeReply r).envelope = s.envelope := rfl
@[simp] theorem State.queues_placeReply (s : State) (r : Reply) : (s.placeReply r).queues = s.queues := rfl
@[simp] theorem State.stage_placeReply (s : State) (r : Reply) : (s.placeReply r).stage = s.stage := rfl
@[simp] theorem State.definition_placeReply (s : State) (r : Reply) : (s.placeReply r).definition = s.definition := rfl
@[simp] theorem State.runner_placeReply (s : State) (r : Reply) : (s.placeReply r).runner = s.runner := rfl
@[simp] theorem State.inputs_placeReply (s : State) (r : Reply) : (s.placeReply r).inputs = s.inputs := rfl
@[simp] theorem State.marks_placeReply (s : State) (r : Reply) : (s.placeReply r).marks = s.marks := rfl
@[simp] theorem State.freeCount_placeReply (s : State) (r : Reply) : (s.placeReply r).freeCount = s.freeCount := rfl
@[simp] theorem State.pending_placeReply (s : State) (r : Reply) : (s.placeReply r).pending = s.pending := rfl

/-! ### Records after an update -/

theorem State.gate_setGate (s : State) (g h : GateNo) (r : GateRec) :
    (s.setGate g r).gate h = if g = h then r else s.gate h := by
  simp only [State.gate, State.setGate, Vector.get_eq_getElem, Vector.getElem_set, Fin.ext_iff]

@[simp] theorem State.gate_setGate_self (s : State) (g : GateNo) (r : GateRec) : (s.setGate g r).gate g = r := by
  simp [State.gate_setGate]

theorem State.gate_setGate_ne (s : State) {g h : GateNo} (r : GateRec) (h' : g ≠ h) :
    (s.setGate g r).gate h = s.gate h := by simp [State.gate_setGate, h']

@[simp] theorem State.setGate_setGate (s : State) (g : GateNo) (r r' : GateRec) :
    (s.setGate g r).setGate g r' = s.setGate g r' := by simp [State.setGate]

@[simp] theorem State.setGate_gate (s : State) (g : GateNo) : s.setGate g (s.gate g) = s := by
  simp [State.setGate, State.gate, Vector.get_eq_getElem]

theorem State.slot_setSlot (s : State) (k j : SlotNo) (r : Slot) :
    (s.setSlot k r).slot j = if k = j then r else s.slot j := by
  simp only [State.slot, State.setSlot, Vector.get_eq_getElem, Vector.getElem_set, Fin.ext_iff]

@[simp] theorem State.slot_setSlot_self (s : State) (k : SlotNo) (r : Slot) : (s.setSlot k r).slot k = r := by
  simp [State.slot_setSlot]

theorem State.slot_setSlot_ne (s : State) {k j : SlotNo} (r : Slot) (h' : k ≠ j) :
    (s.setSlot k r).slot j = s.slot j := by simp [State.slot_setSlot, h']

@[simp] theorem State.setSlot_setSlot (s : State) (k : SlotNo) (r r' : Slot) :
    (s.setSlot k r).setSlot k r' = s.setSlot k r' := by simp [State.setSlot]

@[simp] theorem State.setSlot_slot (s : State) (k : SlotNo) : s.setSlot k (s.slot k) = s := by
  simp [State.setSlot, State.slot, Vector.get_eq_getElem]

theorem State.unit_setUnit (s : State) (u v : UnitNo) (r : PowerUnit) :
    (s.setUnit u r).unit v = if u = v then r else s.unit v := by
  simp only [State.unit, State.setUnit, Vector.get_eq_getElem, Vector.getElem_set, Fin.ext_iff]

@[simp] theorem State.unit_setUnit_self (s : State) (u : UnitNo) (r : PowerUnit) : (s.setUnit u r).unit u = r := by
  simp [State.unit_setUnit]

theorem State.unit_setUnit_ne (s : State) {u v : UnitNo} (r : PowerUnit) (h' : u ≠ v) :
    (s.setUnit u r).unit v = s.unit v := by simp [State.unit_setUnit, h']

@[simp] theorem State.setUnit_setUnit (s : State) (u : UnitNo) (r r' : PowerUnit) :
    (s.setUnit u r).setUnit u r' = s.setUnit u r' := by simp [State.setUnit]

@[simp] theorem State.setUnit_unit (s : State) (u : UnitNo) : s.setUnit u (s.unit u) = s := by
  simp [State.setUnit, State.unit, Vector.get_eq_getElem]

theorem State.queue_setQueue (s : State) (g h : GateNo) (r : Queue) :
    (s.setQueue g r).queue h = if g = h then r else s.queue h := by
  simp only [State.queue, State.setQueue, Vector.get_eq_getElem, Vector.getElem_set, Fin.ext_iff]

@[simp] theorem State.queue_setQueue_self (s : State) (g : GateNo) (r : Queue) : (s.setQueue g r).queue g = r := by
  simp [State.queue_setQueue]

theorem State.queue_setQueue_ne (s : State) {g h : GateNo} (r : Queue) (h' : g ≠ h) :
    (s.setQueue g r).queue h = s.queue h := by simp [State.queue_setQueue, h']

@[simp] theorem State.setQueue_setQueue (s : State) (g : GateNo) (r r' : Queue) :
    (s.setQueue g r).setQueue g r' = s.setQueue g r' := by simp [State.setQueue]

@[simp] theorem State.setQueue_queue (s : State) (g : GateNo) : s.setQueue g (s.queue g) = s := by
  simp [State.setQueue, State.queue, Vector.get_eq_getElem]

/-! ### Reads of other records -/

@[simp] theorem State.gate_setSlot (s : State) (k : SlotNo) (r : Slot) (g' : GateNo) : (s.setSlot k r).gate g' = s.gate g' := rfl
@[simp] theorem State.gate_setUnit (s : State) (u : UnitNo) (r : PowerUnit) (g' : GateNo) : (s.setUnit u r).gate g' = s.gate g' := rfl
@[simp] theorem State.gate_setQueue (s : State) (g : GateNo) (q : Queue) (g' : GateNo) : (s.setQueue g q).gate g' = s.gate g' := rfl
@[simp] theorem State.gate_setLink (s : State) (l : Link) (g' : GateNo) : (s.setLink l).gate g' = s.gate g' := rfl
@[simp] theorem State.gate_setRunner (s : State) (r : Runner) (g' : GateNo) : (s.setRunner r).gate g' = s.gate g' := rfl
@[simp] theorem State.gate_setLock (s : State) (k : Option SlotNo) (g' : GateNo) : (s.setLock k).gate g' = s.gate g' := rfl
@[simp] theorem State.gate_setStartQueue (s : State) (q : List UnitNo) (g' : GateNo) : (s.setStartQueue q).gate g' = s.gate g' := rfl
@[simp] theorem State.gate_setTide (s : State) (t : Tide) (g' : GateNo) : (s.setTide t).gate g' = s.gate g' := rfl
@[simp] theorem State.gate_setEnvelope (s : State) (e : Envelope) (g' : GateNo) : (s.setEnvelope e).gate g' = s.gate g' := rfl
@[simp] theorem State.gate_setStage (s : State) (t : Stage) (g' : GateNo) : (s.setStage t).gate g' = s.gate g' := rfl
@[simp] theorem State.gate_setUnitInput (s : State) (u : UnitNo) (i : UnitInputs) (g' : GateNo) : (s.setUnitInput u i).gate g' = s.gate g' := rfl
@[simp] theorem State.gate_setPinInput (s : State) (g : GateNo) (p : PinInputs) (g' : GateNo) : (s.setPinInput g p).gate g' = s.gate g' := rfl
@[simp] theorem State.gate_setMode (s : State) (m : DeviceMode) (f : Option Flavour) (g' : GateNo) : (s.setMode m f).gate g' = s.gate g' := rfl
@[simp] theorem State.gate_openRound (s : State) (g' : GateNo) : (s.openRound).gate g' = s.gate g' := rfl
@[simp] theorem State.gate_closeRound (s : State) (g' : GateNo) : (s.closeRound).gate g' = s.gate g' := rfl
@[simp] theorem State.gate_markReport (s : State) (b : Bool) (g' : GateNo) : (s.markReport b).gate g' = s.gate g' := rfl
@[simp] theorem State.gate_bump (s : State) (g' : GateNo) : (s.bump).gate g' = s.gate g' := rfl
@[simp] theorem State.gate_notify (s : State) (n : Notice) (g' : GateNo) : (s.notify n).gate g' = s.gate g' := rfl
@[simp] theorem State.gate_placeReply (s : State) (r : Reply) (g' : GateNo) : (s.placeReply r).gate g' = s.gate g' := rfl

@[simp] theorem State.slot_setGate (s : State) (g : GateNo) (r : GateRec) (k' : SlotNo) : (s.setGate g r).slot k' = s.slot k' := rfl
@[simp] theorem State.slot_setUnit (s : State) (u : UnitNo) (r : PowerUnit) (k' : SlotNo) : (s.setUnit u r).slot k' = s.slot k' := rfl
@[simp] theorem State.slot_setQueue (s : State) (g : GateNo) (q : Queue) (k' : SlotNo) : (s.setQueue g q).slot k' = s.slot k' := rfl
@[simp] theorem State.slot_setLink (s : State) (l : Link) (k' : SlotNo) : (s.setLink l).slot k' = s.slot k' := rfl
@[simp] theorem State.slot_setRunner (s : State) (r : Runner) (k' : SlotNo) : (s.setRunner r).slot k' = s.slot k' := rfl
@[simp] theorem State.slot_setLock (s : State) (k : Option SlotNo) (k' : SlotNo) : (s.setLock k).slot k' = s.slot k' := rfl
@[simp] theorem State.slot_setStartQueue (s : State) (q : List UnitNo) (k' : SlotNo) : (s.setStartQueue q).slot k' = s.slot k' := rfl
@[simp] theorem State.slot_setTide (s : State) (t : Tide) (k' : SlotNo) : (s.setTide t).slot k' = s.slot k' := rfl
@[simp] theorem State.slot_setEnvelope (s : State) (e : Envelope) (k' : SlotNo) : (s.setEnvelope e).slot k' = s.slot k' := rfl
@[simp] theorem State.slot_setStage (s : State) (t : Stage) (k' : SlotNo) : (s.setStage t).slot k' = s.slot k' := rfl
@[simp] theorem State.slot_setUnitInput (s : State) (u : UnitNo) (i : UnitInputs) (k' : SlotNo) : (s.setUnitInput u i).slot k' = s.slot k' := rfl
@[simp] theorem State.slot_setPinInput (s : State) (g : GateNo) (p : PinInputs) (k' : SlotNo) : (s.setPinInput g p).slot k' = s.slot k' := rfl
@[simp] theorem State.slot_setMode (s : State) (m : DeviceMode) (f : Option Flavour) (k' : SlotNo) : (s.setMode m f).slot k' = s.slot k' := rfl
@[simp] theorem State.slot_openRound (s : State) (k' : SlotNo) : (s.openRound).slot k' = s.slot k' := rfl
@[simp] theorem State.slot_closeRound (s : State) (k' : SlotNo) : (s.closeRound).slot k' = s.slot k' := rfl
@[simp] theorem State.slot_markReport (s : State) (b : Bool) (k' : SlotNo) : (s.markReport b).slot k' = s.slot k' := rfl
@[simp] theorem State.slot_bump (s : State) (k' : SlotNo) : (s.bump).slot k' = s.slot k' := rfl
@[simp] theorem State.slot_notify (s : State) (n : Notice) (k' : SlotNo) : (s.notify n).slot k' = s.slot k' := rfl
@[simp] theorem State.slot_placeReply (s : State) (r : Reply) (k' : SlotNo) : (s.placeReply r).slot k' = s.slot k' := rfl

@[simp] theorem State.unit_setGate (s : State) (g : GateNo) (r : GateRec) (u' : UnitNo) : (s.setGate g r).unit u' = s.unit u' := rfl
@[simp] theorem State.unit_setSlot (s : State) (k : SlotNo) (r : Slot) (u' : UnitNo) : (s.setSlot k r).unit u' = s.unit u' := rfl
@[simp] theorem State.unit_setQueue (s : State) (g : GateNo) (q : Queue) (u' : UnitNo) : (s.setQueue g q).unit u' = s.unit u' := rfl
@[simp] theorem State.unit_setLink (s : State) (l : Link) (u' : UnitNo) : (s.setLink l).unit u' = s.unit u' := rfl
@[simp] theorem State.unit_setRunner (s : State) (r : Runner) (u' : UnitNo) : (s.setRunner r).unit u' = s.unit u' := rfl
@[simp] theorem State.unit_setLock (s : State) (k : Option SlotNo) (u' : UnitNo) : (s.setLock k).unit u' = s.unit u' := rfl
@[simp] theorem State.unit_setStartQueue (s : State) (q : List UnitNo) (u' : UnitNo) : (s.setStartQueue q).unit u' = s.unit u' := rfl
@[simp] theorem State.unit_setTide (s : State) (t : Tide) (u' : UnitNo) : (s.setTide t).unit u' = s.unit u' := rfl
@[simp] theorem State.unit_setEnvelope (s : State) (e : Envelope) (u' : UnitNo) : (s.setEnvelope e).unit u' = s.unit u' := rfl
@[simp] theorem State.unit_setStage (s : State) (t : Stage) (u' : UnitNo) : (s.setStage t).unit u' = s.unit u' := rfl
@[simp] theorem State.unit_setUnitInput (s : State) (u : UnitNo) (i : UnitInputs) (u' : UnitNo) : (s.setUnitInput u i).unit u' = s.unit u' := rfl
@[simp] theorem State.unit_setPinInput (s : State) (g : GateNo) (p : PinInputs) (u' : UnitNo) : (s.setPinInput g p).unit u' = s.unit u' := rfl
@[simp] theorem State.unit_setMode (s : State) (m : DeviceMode) (f : Option Flavour) (u' : UnitNo) : (s.setMode m f).unit u' = s.unit u' := rfl
@[simp] theorem State.unit_openRound (s : State) (u' : UnitNo) : (s.openRound).unit u' = s.unit u' := rfl
@[simp] theorem State.unit_closeRound (s : State) (u' : UnitNo) : (s.closeRound).unit u' = s.unit u' := rfl
@[simp] theorem State.unit_markReport (s : State) (b : Bool) (u' : UnitNo) : (s.markReport b).unit u' = s.unit u' := rfl
@[simp] theorem State.unit_bump (s : State) (u' : UnitNo) : (s.bump).unit u' = s.unit u' := rfl
@[simp] theorem State.unit_notify (s : State) (n : Notice) (u' : UnitNo) : (s.notify n).unit u' = s.unit u' := rfl
@[simp] theorem State.unit_placeReply (s : State) (r : Reply) (u' : UnitNo) : (s.placeReply r).unit u' = s.unit u' := rfl

@[simp] theorem State.queue_setGate (s : State) (g : GateNo) (r : GateRec) (g' : GateNo) : (s.setGate g r).queue g' = s.queue g' := rfl
@[simp] theorem State.queue_setSlot (s : State) (k : SlotNo) (r : Slot) (g' : GateNo) : (s.setSlot k r).queue g' = s.queue g' := rfl
@[simp] theorem State.queue_setUnit (s : State) (u : UnitNo) (r : PowerUnit) (g' : GateNo) : (s.setUnit u r).queue g' = s.queue g' := rfl
@[simp] theorem State.queue_setLink (s : State) (l : Link) (g' : GateNo) : (s.setLink l).queue g' = s.queue g' := rfl
@[simp] theorem State.queue_setRunner (s : State) (r : Runner) (g' : GateNo) : (s.setRunner r).queue g' = s.queue g' := rfl
@[simp] theorem State.queue_setLock (s : State) (k : Option SlotNo) (g' : GateNo) : (s.setLock k).queue g' = s.queue g' := rfl
@[simp] theorem State.queue_setStartQueue (s : State) (q : List UnitNo) (g' : GateNo) : (s.setStartQueue q).queue g' = s.queue g' := rfl
@[simp] theorem State.queue_setTide (s : State) (t : Tide) (g' : GateNo) : (s.setTide t).queue g' = s.queue g' := rfl
@[simp] theorem State.queue_setEnvelope (s : State) (e : Envelope) (g' : GateNo) : (s.setEnvelope e).queue g' = s.queue g' := rfl
@[simp] theorem State.queue_setStage (s : State) (t : Stage) (g' : GateNo) : (s.setStage t).queue g' = s.queue g' := rfl
@[simp] theorem State.queue_setUnitInput (s : State) (u : UnitNo) (i : UnitInputs) (g' : GateNo) : (s.setUnitInput u i).queue g' = s.queue g' := rfl
@[simp] theorem State.queue_setPinInput (s : State) (g : GateNo) (p : PinInputs) (g' : GateNo) : (s.setPinInput g p).queue g' = s.queue g' := rfl
@[simp] theorem State.queue_setMode (s : State) (m : DeviceMode) (f : Option Flavour) (g' : GateNo) : (s.setMode m f).queue g' = s.queue g' := rfl
@[simp] theorem State.queue_openRound (s : State) (g' : GateNo) : (s.openRound).queue g' = s.queue g' := rfl
@[simp] theorem State.queue_closeRound (s : State) (g' : GateNo) : (s.closeRound).queue g' = s.queue g' := rfl
@[simp] theorem State.queue_markReport (s : State) (b : Bool) (g' : GateNo) : (s.markReport b).queue g' = s.queue g' := rfl
@[simp] theorem State.queue_bump (s : State) (g' : GateNo) : (s.bump).queue g' = s.queue g' := rfl
@[simp] theorem State.queue_notify (s : State) (n : Notice) (g' : GateNo) : (s.notify n).queue g' = s.queue g' := rfl
@[simp] theorem State.queue_placeReply (s : State) (r : Reply) (g' : GateNo) : (s.placeReply r).queue g' = s.queue g' := rfl

@[simp] theorem State.unitInput_setGate (s : State) (g : GateNo) (r : GateRec) (u' : UnitNo) : (s.setGate g r).unitInput u' = s.unitInput u' := rfl
@[simp] theorem State.unitInput_setSlot (s : State) (k : SlotNo) (r : Slot) (u' : UnitNo) : (s.setSlot k r).unitInput u' = s.unitInput u' := rfl
@[simp] theorem State.unitInput_setUnit (s : State) (u : UnitNo) (r : PowerUnit) (u' : UnitNo) : (s.setUnit u r).unitInput u' = s.unitInput u' := rfl
@[simp] theorem State.unitInput_setQueue (s : State) (g : GateNo) (q : Queue) (u' : UnitNo) : (s.setQueue g q).unitInput u' = s.unitInput u' := rfl
@[simp] theorem State.unitInput_setLink (s : State) (l : Link) (u' : UnitNo) : (s.setLink l).unitInput u' = s.unitInput u' := rfl
@[simp] theorem State.unitInput_setRunner (s : State) (r : Runner) (u' : UnitNo) : (s.setRunner r).unitInput u' = s.unitInput u' := rfl
@[simp] theorem State.unitInput_setLock (s : State) (k : Option SlotNo) (u' : UnitNo) : (s.setLock k).unitInput u' = s.unitInput u' := rfl
@[simp] theorem State.unitInput_setStartQueue (s : State) (q : List UnitNo) (u' : UnitNo) : (s.setStartQueue q).unitInput u' = s.unitInput u' := rfl
@[simp] theorem State.unitInput_setTide (s : State) (t : Tide) (u' : UnitNo) : (s.setTide t).unitInput u' = s.unitInput u' := rfl
@[simp] theorem State.unitInput_setEnvelope (s : State) (e : Envelope) (u' : UnitNo) : (s.setEnvelope e).unitInput u' = s.unitInput u' := rfl
@[simp] theorem State.unitInput_setStage (s : State) (t : Stage) (u' : UnitNo) : (s.setStage t).unitInput u' = s.unitInput u' := rfl
@[simp] theorem State.unitInput_setMode (s : State) (m : DeviceMode) (f : Option Flavour) (u' : UnitNo) : (s.setMode m f).unitInput u' = s.unitInput u' := rfl
@[simp] theorem State.unitInput_openRound (s : State) (u' : UnitNo) : (s.openRound).unitInput u' = s.unitInput u' := rfl
@[simp] theorem State.unitInput_closeRound (s : State) (u' : UnitNo) : (s.closeRound).unitInput u' = s.unitInput u' := rfl
@[simp] theorem State.unitInput_markReport (s : State) (b : Bool) (u' : UnitNo) : (s.markReport b).unitInput u' = s.unitInput u' := rfl
@[simp] theorem State.unitInput_bump (s : State) (u' : UnitNo) : (s.bump).unitInput u' = s.unitInput u' := rfl
@[simp] theorem State.unitInput_notify (s : State) (n : Notice) (u' : UnitNo) : (s.notify n).unitInput u' = s.unitInput u' := rfl
@[simp] theorem State.unitInput_placeReply (s : State) (r : Reply) (u' : UnitNo) : (s.placeReply r).unitInput u' = s.unitInput u' := rfl

@[simp] theorem State.pinInput_setGate (s : State) (g : GateNo) (r : GateRec) (g' : GateNo) : (s.setGate g r).pinInput g' = s.pinInput g' := rfl
@[simp] theorem State.pinInput_setSlot (s : State) (k : SlotNo) (r : Slot) (g' : GateNo) : (s.setSlot k r).pinInput g' = s.pinInput g' := rfl
@[simp] theorem State.pinInput_setUnit (s : State) (u : UnitNo) (r : PowerUnit) (g' : GateNo) : (s.setUnit u r).pinInput g' = s.pinInput g' := rfl
@[simp] theorem State.pinInput_setQueue (s : State) (g : GateNo) (q : Queue) (g' : GateNo) : (s.setQueue g q).pinInput g' = s.pinInput g' := rfl
@[simp] theorem State.pinInput_setLink (s : State) (l : Link) (g' : GateNo) : (s.setLink l).pinInput g' = s.pinInput g' := rfl
@[simp] theorem State.pinInput_setRunner (s : State) (r : Runner) (g' : GateNo) : (s.setRunner r).pinInput g' = s.pinInput g' := rfl
@[simp] theorem State.pinInput_setLock (s : State) (k : Option SlotNo) (g' : GateNo) : (s.setLock k).pinInput g' = s.pinInput g' := rfl
@[simp] theorem State.pinInput_setStartQueue (s : State) (q : List UnitNo) (g' : GateNo) : (s.setStartQueue q).pinInput g' = s.pinInput g' := rfl
@[simp] theorem State.pinInput_setTide (s : State) (t : Tide) (g' : GateNo) : (s.setTide t).pinInput g' = s.pinInput g' := rfl
@[simp] theorem State.pinInput_setEnvelope (s : State) (e : Envelope) (g' : GateNo) : (s.setEnvelope e).pinInput g' = s.pinInput g' := rfl
@[simp] theorem State.pinInput_setStage (s : State) (t : Stage) (g' : GateNo) : (s.setStage t).pinInput g' = s.pinInput g' := rfl
@[simp] theorem State.pinInput_setMode (s : State) (m : DeviceMode) (f : Option Flavour) (g' : GateNo) : (s.setMode m f).pinInput g' = s.pinInput g' := rfl
@[simp] theorem State.pinInput_openRound (s : State) (g' : GateNo) : (s.openRound).pinInput g' = s.pinInput g' := rfl
@[simp] theorem State.pinInput_closeRound (s : State) (g' : GateNo) : (s.closeRound).pinInput g' = s.pinInput g' := rfl
@[simp] theorem State.pinInput_markReport (s : State) (b : Bool) (g' : GateNo) : (s.markReport b).pinInput g' = s.pinInput g' := rfl
@[simp] theorem State.pinInput_bump (s : State) (g' : GateNo) : (s.bump).pinInput g' = s.pinInput g' := rfl
@[simp] theorem State.pinInput_notify (s : State) (n : Notice) (g' : GateNo) : (s.notify n).pinInput g' = s.pinInput g' := rfl
@[simp] theorem State.pinInput_placeReply (s : State) (r : Reply) (g' : GateNo) : (s.placeReply r).pinInput g' = s.pinInput g' := rfl

@[simp] theorem State.locked_setGate (s : State) (g : GateNo) (r : GateRec) (k' : SlotNo) : (s.setGate g r).locked k' = s.locked k' := rfl
@[simp] theorem State.locked_setSlot (s : State) (k : SlotNo) (r : Slot) (k' : SlotNo) : (s.setSlot k r).locked k' = s.locked k' := rfl
@[simp] theorem State.locked_setUnit (s : State) (u : UnitNo) (r : PowerUnit) (k' : SlotNo) : (s.setUnit u r).locked k' = s.locked k' := rfl
@[simp] theorem State.locked_setQueue (s : State) (g : GateNo) (q : Queue) (k' : SlotNo) : (s.setQueue g q).locked k' = s.locked k' := rfl
@[simp] theorem State.locked_setLink (s : State) (l : Link) (k' : SlotNo) : (s.setLink l).locked k' = s.locked k' := rfl
@[simp] theorem State.locked_setRunner (s : State) (r : Runner) (k' : SlotNo) : (s.setRunner r).locked k' = s.locked k' := rfl
@[simp] theorem State.locked_setStartQueue (s : State) (q : List UnitNo) (k' : SlotNo) : (s.setStartQueue q).locked k' = s.locked k' := rfl
@[simp] theorem State.locked_setTide (s : State) (t : Tide) (k' : SlotNo) : (s.setTide t).locked k' = s.locked k' := rfl
@[simp] theorem State.locked_setEnvelope (s : State) (e : Envelope) (k' : SlotNo) : (s.setEnvelope e).locked k' = s.locked k' := rfl
@[simp] theorem State.locked_setStage (s : State) (t : Stage) (k' : SlotNo) : (s.setStage t).locked k' = s.locked k' := rfl
@[simp] theorem State.locked_setUnitInput (s : State) (u : UnitNo) (i : UnitInputs) (k' : SlotNo) : (s.setUnitInput u i).locked k' = s.locked k' := rfl
@[simp] theorem State.locked_setPinInput (s : State) (g : GateNo) (p : PinInputs) (k' : SlotNo) : (s.setPinInput g p).locked k' = s.locked k' := rfl
@[simp] theorem State.locked_setMode (s : State) (m : DeviceMode) (f : Option Flavour) (k' : SlotNo) : (s.setMode m f).locked k' = s.locked k' := rfl
@[simp] theorem State.locked_openRound (s : State) (k' : SlotNo) : (s.openRound).locked k' = s.locked k' := rfl
@[simp] theorem State.locked_closeRound (s : State) (k' : SlotNo) : (s.closeRound).locked k' = s.locked k' := rfl
@[simp] theorem State.locked_markReport (s : State) (b : Bool) (k' : SlotNo) : (s.markReport b).locked k' = s.locked k' := rfl
@[simp] theorem State.locked_bump (s : State) (k' : SlotNo) : (s.bump).locked k' = s.locked k' := rfl
@[simp] theorem State.locked_notify (s : State) (n : Notice) (k' : SlotNo) : (s.notify n).locked k' = s.locked k' := rfl
@[simp] theorem State.locked_placeReply (s : State) (r : Reply) (k' : SlotNo) : (s.placeReply r).locked k' = s.locked k' := rfl

end Sys2Proof.Machine
end

