-- ==== Sys2Proof/Laws/Kept.lean ====
section
/-! SUPPORT. What every shared operation below the requests keeps, said once. Each operation is a run of a few kinds of
updates (`Touch`, one lemma `State.touch_<name>` per operation); whatever those updates keep, the operation keeps: the
fields of State that no gate, table, arbiter, unit or runner operation touches, and the laws of the link port and the
pool (`Touch.kept`). -/

namespace Sys2Proof.Machine

open Sys2Proof.Safety

/-- Between `s` and `t` the mode record, the clock, the reset line, the arbitration mode, the tide monitor, the envelope
unit, the stage table, the definition, the input levels and the queue of commands stand as they were, and the laws of the
link port (R202) and of the pool (R143) still hold if they held. -/
structure Kept (s t : State) : Prop where
  mode : t.mode = s.mode
  flavour : t.flavour = s.flavour
  clock : t.clock = s.clock
  resetHeld : t.resetHeld = s.resetHeld
  arbitration : t.arbitration = s.arbitration
  tide : t.tide = s.tide
  envelope : t.envelope = s.envelope
  stage : t.stage = s.stage
  definition : t.definition = s.definition
  inputs : t.inputs = s.inputs
  pending : t.pending = s.pending
  link : LinkBounded s → LinkBounded t
  fit : QueuesFit s → QueuesFit t
  apart : PartitionsApart s → PartitionsApart t
  free : FreeEmpty s → FreeEmpty t
  locked : LockLawful s → LockLawful t
  units : UnitsLawful s → UnitsLawful t

theorem Kept.refl (s : State) : Kept s s := ⟨rfl, rfl, rfl, rfl, rfl, rfl, rfl, rfl, rfl, rfl, rfl, id, id, id, id, id, id⟩

theorem Kept.trans {s t u : State} (h : Kept s t) (k : Kept t u) : Kept s u :=
  ⟨k.mode.trans h.mode, k.flavour.trans h.flavour, k.clock.trans h.clock, k.resetHeld.trans h.resetHeld,
    k.arbitration.trans h.arbitration, k.tide.trans h.tide, k.envelope.trans h.envelope, k.stage.trans h.stage,
    k.definition.trans h.definition, k.inputs.trans h.inputs, k.pending.trans h.pending, k.link ∘ h.link,
    k.fit ∘ h.fit, k.apart ∘ h.apart, k.free ∘ h.free,
    k.locked ∘ h.locked, k.units ∘ h.units⟩

/-! ### The link port -/

/-- A transmit decision takes from the reply area or the queue, never adds (R201). -/
theorem Link.length_decide (l : Link) :
    l.decide.notices.length ≤ l.notices.length ∧ l.decide.replies.length ≤ l.replies.length := by
  unfold Link.decide
  split
  · simp_all
  · split <;> simp_all

theorem Link.length_decideIfIdle (l : Link) :
    l.decideIfIdle.notices.length ≤ l.notices.length ∧ l.decideIfIdle.replies.length ≤ l.replies.length := by
  unfold Link.decideIfIdle
  split
  · exact l.length_decide
  · simp

/-- Taking a notice keeps the bounds of the queue and of the reply area (R202). -/
theorem Link.take_bounded (l : Link) (n : Notice) (h : l.notices.length ≤ 16 ∧ l.replies.length ≤ 2) :
    (l.take n).notices.length ≤ 16 ∧ (l.take n).replies.length ≤ 2 := by
  unfold Link.take
  split
  · exact h
  · split
    · exact h
    · have := Link.length_decideIfIdle { l with notices := l.notices ++ [n] }
      simp only [List.length_append, List.length_singleton] at this
      omega

/-- Placing a reply where the area has room keeps the bounds (R200). -/
theorem Link.place_bounded (l : Link) (r : Reply) (h : l.notices.length ≤ 16) (room : l.replies.length < 2) :
    (l.place r).notices.length ≤ 16 ∧ (l.place r).replies.length ≤ 2 := by
  have := Link.length_decideIfIdle { l with replies := l.replies ++ [r] }
  simp only [List.length_append, List.length_singleton] at this
  unfold Link.place
  omega


/-! ### The pool -/

/-- A queue that is replaced by one of the same partition and no higher level keeps the laws of the pool (R143). -/
theorem State.kept_setQueue (s : State) (g : GateNo) (q : Queue) (hb : q.base = (s.queue g).base)
    (hs : q.size = (s.queue g).size) (hl : q.level ≤ (s.queue g).level) : Kept s (s.setQueue g q) := by
  have base : ∀ h, ((s.setQueue g q).queue h).base = (s.queue h).base := by
    intro h
    by_cases e : h = g
    · subst e
      rw [State.queue_setQueue_self]
      exact hb
    · rw [State.queue_setQueue_ne s q (Ne.symm e)]
  have size : ∀ h, ((s.setQueue g q).queue h).size = (s.queue h).size := by
    intro h
    by_cases e : h = g
    · subst e
      rw [State.queue_setQueue_self]
      exact hs
    · rw [State.queue_setQueue_ne s q (Ne.symm e)]
  have level : ∀ h, ((s.setQueue g q).queue h).level ≤ (s.queue h).level := by
    intro h
    by_cases e : h = g
    · subst e
      rw [State.queue_setQueue_self]
      exact hl
    · rw [State.queue_setQueue_ne s q (Ne.symm e)]
  refine ⟨rfl, rfl, rfl, rfl, rfl, rfl, rfl, rfl, rfl, rfl, rfl, id, fun f h => ?_, fun f a b ne nz => ?_, id, id, id⟩
  · rw [base, size]
    exact ⟨(level h).trans (f h).1, (f h).2⟩
  · have := f a b ne (size b ▸ nz)
    unfold Queue.overlaps at this ⊢
    rw [base, base, size, size]
    exact this

/-! ### Steps below the requests -/

theorem State.free_setSlot (s : State) {k : SlotNo} {r : Slot} (h : r.state = .free → r = Slot.empty) (f : FreeEmpty s) :
    FreeEmpty (s.setSlot k r) := by
  intro j e
  by_cases ne : k = j
  · subst ne
    rw [State.slot_setSlot_self] at e ⊢
    exact h e
  · rw [State.slot_setSlot_ne s r ne] at e ⊢
    exact f j e

theorem State.lawful_setSlot (s : State) {k : SlotNo} {r : Slot} (l : LockLawful s)
    (h : s.lock = some k → r.state = .armed ∨ r.state = .done) : LockLawful (s.setSlot k r) := by
  intro j e
  by_cases ne : k = j
  · subst ne
    rw [State.slot_setSlot_self]
    exact h (beq_iff_eq.1 e)
  · rw [State.slot_setSlot_ne s r ne]
    exact l j e

theorem State.locked_none {s : State} (h : s.lock = none) : LockLawful s := by
  intro k e
  rw [State.locked, h] at e
  exact absurd e (by simp)

theorem State.units_setUnit (s : State) {u : UnitNo} {r : PowerUnit}
    (h : Safety.PowerUnit.outputsLawful (s.unit u) = true → Safety.PowerUnit.outputsLawful r = true)
    (l : UnitsLawful s) : UnitsLawful (s.setUnit u r) := by
  intro held v
  by_cases e : u = v
  · subst e
    rw [State.unit_setUnit_self]
    exact h (l held u)
  · rw [State.unit_setUnit_ne s r e]
    exact l held v

/-- The record `r` may take the place of slot `k`: it is empty if it is FREE (R48), and ARMED or DONE if the slot is the
lock holder of a lawful table (R64). -/
def SlotFits (s : State) (k : SlotNo) (r : Slot) : Prop :=
  (r.state = .free → r = Slot.empty) ∧ (LockLawful s → s.lock = some k → r.state = .armed ∨ r.state = .done)

/-- A record in a state other than FREE fits where the lock is held elsewhere. -/
theorem SlotFits.of {s : State} {k : SlotNo} {r : Slot} (h : r.state ≠ .free)
    (l : LockLawful s → s.lock = some k → r.state = .armed ∨ r.state = .done) : SlotFits s k r :=
  ⟨fun e => absurd e h, l⟩

/-- `t` comes from `s` by updates of slots, units, the runner, the lock, the start queue, the marks of the event, the
count of free choices, and notices, and by updates of the gates in `m` and pops of their queues. Every shared operation
is shown once to be such a run of updates; what such a run keeps is then said once. -/
inductive Touch (m : GateNo → Prop) : State → State → Prop where
  | refl (s : State) : Touch m s s
  | trans {s t u : State} : Touch m s t → Touch m t u → Touch m s u
  | setSlot (s : State) (k : SlotNo) (r : Slot) (h : SlotFits s k r) : Touch m s (s.setSlot k r)
  | rewrite (s : State) (k : SlotNo) (r : Slot) (h : r.state = .free → r = Slot.empty) :
    Touch m s ((s.setSlot k r).dropLock k)
  | setUnit (s : State) (u : UnitNo) (r : PowerUnit)
    (h : Safety.PowerUnit.outputsLawful (s.unit u) = true → Safety.PowerUnit.outputsLawful r = true) :
    Touch m s (s.setUnit u r)
  | setRunner (s : State) (r : Runner) : Touch m s (s.setRunner r)
  | unlock (s : State) : Touch m s (s.setLock none)
  | setStartQueue (s : State) (q : List UnitNo) : Touch m s (s.setStartQueue q)
  | openRound (s : State) : Touch m s s.openRound
  | closeRound (s : State) : Touch m s s.closeRound
  | markReport (s : State) (b : Bool) : Touch m s (s.markReport b)
  | bump (s : State) : Touch m s s.bump
  | notify (s : State) (n : Notice) : Touch m s (s.notify n)
  | setGate (s : State) {g : GateNo} (h : m g) (r : GateRec) : Touch m s (s.setGate g r)
  | popped (s : State) {g : GateNo} (h : m g) : Touch m s (s.setQueue g (s.queue g).popped)

theorem Touch.ite {m : GateNo → Prop} {s a b : State} {p : Prop} [Decidable p] (ha : Touch m s a) (hb : Touch m s b) :
    Touch m s (if p then a else b) := by
  split
  · exact ha
  · exact hb

theorem Touch.foldl {m : GateNo → Prop} {α : Type} {f : State → α → State} (h : ∀ s x, Touch m s (f s x)) (l : List α)
    (s : State) : Touch m s (l.foldl f s) := by
  induction l generalizing s with
  | nil => exact Touch.refl s
  | cons x l ih => exact (h s x).trans (ih _)

/-- A run may touch more gates than it does. -/
theorem Touch.mono {m n : GateNo → Prop} (mn : ∀ g, m g → n g) {s t : State} (h : Touch m s t) : Touch n s t := by
  induction h with
  | trans _ _ a b => exact a.trans b
  | refl s => exact .refl s
  | setSlot s k r h => exact .setSlot s k r h
  | rewrite s k r h => exact .rewrite s k r h
  | setUnit s u r h => exact .setUnit s u r h
  | setRunner s r => exact .setRunner s r
  | unlock s => exact .unlock s
  | setStartQueue s q => exact .setStartQueue s q
  | openRound s => exact .openRound s
  | closeRound s => exact .closeRound s
  | markReport s b => exact .markReport s b
  | bump s => exact .bump s
  | notify s n => exact .notify s n
  | setGate s h r => exact .setGate s (mn _ h) r
  | popped s h => exact .popped s (mn _ h)

/-- A run that touches any gate. -/
theorem Touch.any {m : GateNo → Prop} {s t : State} (h : Touch m s t) : Touch (fun _ => True) s t :=
  h.mono fun _ _ => trivial

/-- The gates outside `m` and their queues stand. -/
theorem Touch.others {m : GateNo → Prop} {s t : State} (h : Touch m s t) {g : GateNo} (no : ¬m g) :
    t.gate g = s.gate g ∧ t.queue g = s.queue g := by
  induction h with
  | trans _ _ a b => exact ⟨b.1.trans a.1, b.2.trans a.2⟩
  | setGate s h r =>
    exact ⟨State.gate_setGate_ne s r fun e => no (e ▸ h), rfl⟩
  | popped s h => exact ⟨rfl, State.queue_setQueue_ne s _ fun e => no (e ▸ h)⟩
  | rewrite s k r h =>
    unfold State.dropLock
    split
    · exact ⟨rfl, rfl⟩
    · exact ⟨rfl, rfl⟩
  | _ => exact ⟨rfl, rfl⟩

/-- What every run of such updates keeps. -/
theorem Touch.kept {m : GateNo → Prop} {s t : State} (h : Touch m s t) : Kept s t := by
  induction h with
  | trans _ _ a b => exact a.trans b
  | notify s n => exact ⟨rfl, rfl, rfl, rfl, rfl, rfl, rfl, rfl, rfl, rfl, rfl, s.link.take_bounded n, id, id, id, id, id⟩
  | setSlot s k r h =>
    exact ⟨rfl, rfl, rfl, rfl, rfl, rfl, rfl, rfl, rfl, rfl, rfl, id, id, id, s.free_setSlot h.1,
      fun l => s.lawful_setSlot l (h.2 l), id⟩
  | rewrite s k r h =>
    unfold State.dropLock
    split
    · exact ⟨rfl, rfl, rfl, rfl, rfl, rfl, rfl, rfl, rfl, rfl, rfl, id, id, id, s.free_setSlot h,
        fun _ => State.locked_none rfl, id⟩
    · next ne =>
      exact ⟨rfl, rfl, rfl, rfl, rfl, rfl, rfl, rfl, rfl, rfl, rfl, id, id, id, s.free_setSlot h,
        fun l => s.lawful_setSlot l fun e => absurd e ne, id⟩
  | setUnit s u r h =>
    exact ⟨rfl, rfl, rfl, rfl, rfl, rfl, rfl, rfl, rfl, rfl, rfl, id, id, id, id, id, s.units_setUnit h⟩
  | unlock s =>
    exact ⟨rfl, rfl, rfl, rfl, rfl, rfl, rfl, rfl, rfl, rfl, rfl, id, id, id, id, 
      fun _ => State.locked_none rfl, id⟩
  | @popped s g _ => exact s.kept_setQueue g _ rfl rfl (by simp [Queue.popped, Queue.level])
  | _ => exact ⟨rfl, rfl, rfl, rfl, rfl, rfl, rfl, rfl, rfl, rfl, rfl, id, id, id, id, id, id⟩

/-- Such a run may release the lock and never takes it (R64). -/
theorem Touch.lock {m : GateNo → Prop} {s t : State} (h : Touch m s t) : t.lock = s.lock ∨ t.lock = none := by
  induction h with
  | trans _ _ a b =>
    rcases b with b | b
    · rcases a with a | a
      · exact .inl (b.trans a)
      · exact .inr (b.trans a)
    · exact .inr b
  | rewrite s k r _ =>
    unfold State.dropLock
    split
    · exact .inr rfl
    · exact .inl rfl
  | unlock s => exact .inr rfl
  | _ => exact .inl rfl

namespace State

variable {m : GateNo → Prop}

theorem touch_modSlot (s : State) (k : SlotNo) (f : Slot → Slot) (h : SlotFits s k (f (s.slot k))) :
    Touch m s (s.modSlot k f) := .setSlot s k _ h
theorem touch_modUnit (s : State) (u : UnitNo) (f : PowerUnit → PowerUnit)
    (h : ∀ r, Safety.PowerUnit.outputsLawful r = true → Safety.PowerUnit.outputsLawful (f r) = true) :
    Touch m s (s.modUnit u f) := .setUnit s u _ (h _)
theorem touch_modRunner (s : State) (f : Runner → Runner) : Touch m s (s.modRunner f) := .setRunner s _
theorem touch_modGate (s : State) {g : GateNo} (h : m g) (f : GateRec → GateRec) : Touch m s (s.modGate g f) :=
  .setGate s h _
theorem touch_modMove (s : State) {g : GateNo} (h : m g) (f : Move → Move) : Touch m s (s.modMove g f) := .setGate s h _
theorem touch_noteRunning (s : State) : Touch m s s.noteRunning := (Touch.markReport s true).ite (.refl s)

end State

end Sys2Proof.Machine
end

