-- ==== Sys2Proof/Laws/KeptOps.lean ====
section
/-! SUPPORT. `Touch` for the operations of the units, the arbiter, the order table and the gates' trips and locking
(chapters 2 to 5). -/

namespace Sys2Proof.Machine.State

variable {m : GateNo → Prop}

/-! ### Units and starter -/

theorem lawful_liningUp (r : PowerUnit) (k : SlotNo) (g : GateNo) :
    Safety.PowerUnit.outputsLawful (r.toLiningUp k g) = true := by
  simp [Safety.PowerUnit.outputsLawful, PowerUnit.toLiningUp]

theorem lawful_assigned (r : PowerUnit) (g : GateNo) : Safety.PowerUnit.outputsLawful (r.toAssigned g) = true := by
  simp [Safety.PowerUnit.outputsLawful, PowerUnit.toAssigned]


theorem touch_takeOut (s : State) (u : UnitNo) (c : OutCause) : Touch m s (s.takeOut u c) :=
  (s.touch_modUnit u _ fun _ _ => rfl).trans (Touch.notify _ _)

theorem touch_returnGrant (s : State) (k : SlotNo) : Touch m s (s.returnGrant k) := by
  unfold returnGrant
  split
  · next h =>
    refine (s.touch_modSlot k _ (.of (by simp [Slot.returned]) fun l e => ?_)).trans (Touch.openRound _)
    exact absurd (l k (beq_iff_eq.2 e)) (by rw [h]; simp)
  · exact Touch.refl s

theorem touch_returnReserved (s : State) (k : Option SlotNo) : Touch m s (s.returnReserved k) := by
  cases k with
  | none => exact Touch.refl s
  | some k => exact s.touch_returnGrant k

theorem touch_passStarter (l : List UnitNo) (s : State) : Touch m s (State.passStarter l s) := by
  induction l generalizing s with
  | nil => exact Touch.setStartQueue s []
  | cons u l ih =>
    exact (((s.touch_takeOut u _).trans (ih _)).trans (touch_returnReserved _ _)).ite
      ((Touch.setStartQueue s l).trans (touch_modUnit _ u _ fun _ _ => rfl))

theorem touch_requestStart (s : State) (u : UnitNo) (k : SlotNo) (g : GateNo) : Touch m s (s.requestStart u k g) := by
  unfold requestStart
  split
  · exact s.touch_modUnit u _ fun _ _ => rfl
  · exact (s.touch_modUnit u _ fun _ _ => rfl).trans (Touch.setStartQueue _ _)
  · exact ((s.touch_takeOut u _).trans (touch_passStarter _ _)).trans (touch_returnGrant _ k)
  · exact (s.touch_takeOut u _).trans (touch_returnGrant _ k)

theorem touch_grantUnit (s : State) (u : UnitNo) (k : SlotNo) (g : GateNo) : Touch m s (s.grantUnit u k g) := by
  unfold grantUnit
  split
  · exact s.touch_requestStart u k g
  · exact s.touch_modUnit u _ fun _ _ => lawful_liningUp _ _ _
  · exact Touch.refl s

theorem touch_handBack (s : State) (u : UnitNo) : Touch m s (s.handBack u) := by
  unfold handBack
  split
  · exact ((s.touch_modUnit u _ fun _ _ => rfl).trans (Touch.setStartQueue _ _)).trans (Touch.openRound _)
  · next h =>
    refine (Touch.setUnit s u _ fun l => ?_).trans (Touch.openRound _)
    unfold Safety.PowerUnit.outputsLawful at l ⊢
    rw [h] at l
    simp only [h]
    exact l
  · exact (s.touch_modUnit u _ fun _ _ => rfl).trans (Touch.openRound _)
  · exact Touch.openRound s

theorem touch_handBackOf (s : State) (old : Slot) : Touch m s (s.handBackOf old) := by
  unfold handBackOf
  split
  · exact s.touch_handBack _
  · exact Touch.openRound s
  · exact Touch.refl s

theorem touch_releaseUnit (s : State) (u : Option UnitNo) : Touch m s (s.releaseUnit u) := by
  cases u with
  | none => exact Touch.refl s
  | some u => exact ((s.touch_modUnit u _ fun _ _ => rfl).trans (Touch.openRound _)).ite (Touch.refl s)

theorem touch_unitReady (s : State) (u : UnitNo) : Touch m s (s.unitReady u) := by
  unfold unitReady
  refine Touch.trans ?_ (touch_passStarter _ _)
  split
  · exact s.touch_modUnit u _ fun _ _ => lawful_liningUp _ _ _
  · exact (s.touch_modUnit u _ fun _ _ => rfl).trans (Touch.openRound _)

theorem touch_startFailed (s : State) (u : UnitNo) : Touch m s (s.startFailed u) :=
  ((s.touch_takeOut u _).trans (touch_passStarter _ _)).trans (touch_returnReserved _ _)

theorem touch_lineUpFailed (s : State) (u : UnitNo) : Touch m s (s.lineUpFailed u) :=
  (s.touch_takeOut u _).trans (touch_returnReserved _ _)

theorem touch_unitFault (s : State) (u : UnitNo) : Touch m s (s.unitFault u) := by
  unfold unitFault
  simp only
  split
  · exact ((s.touch_takeOut u _).trans (Touch.setStartQueue _ _)).trans (touch_returnReserved _ _)
  · exact ((s.touch_takeOut u _).trans (touch_passStarter _ _)).trans (touch_returnReserved _ _)
  · exact (s.touch_takeOut u _).trans (touch_returnReserved _ _)
  · exact s.touch_takeOut u _
  · exact Touch.refl s

/-! ### The arbiter -/

/-- A grant to a PENDING slot (R53, R84). -/
theorem touch_grant (s : State) (k : SlotNo) (g : GateNo) (u : UnitNo) (h : (s.slot k).state = .pending) :
    Touch m s (s.grant k g u) :=
  (s.touch_modSlot k _ (.of (by simp [Slot.grantedBy]) fun l e =>
    absurd (l k (beq_iff_eq.2 e)) (by rw [h]; simp))).trans (touch_grantUnit _ u k g)

theorem bestOf_mem (s : State) (l : List SlotNo) (k : SlotNo) (h : s.bestOf l = some k) : k ∈ l := by
  induction l generalizing k with
  | nil => exact absurd h (by simp [bestOf])
  | cons j l ih =>
    unfold bestOf at h
    split at h
    · exact List.mem_cons.2 (.inl (Option.some.inj h).symm)
    · next i e =>
      split at h
      · exact List.mem_cons_of_mem _ (ih k (e.trans h))
      · exact List.mem_cons.2 (.inl (Option.some.inj h).symm)

/-- The winner of a pass is eligible (R79, R82). -/
theorem eligible_winner (s : State) (k : SlotNo) (h : s.winner = some k) : s.eligible k = true := by
  unfold winner at h
  simp only at h
  split at h
  · exact (List.mem_filter.1 (s.bestOf_mem _ _ h)).2
  · exact (List.mem_filter.1 (List.mem_of_head? h)).2

/-- An eligible slot is PENDING (R79). -/
theorem pending_eligible (s : State) (k : SlotNo) (h : s.eligible k = true) : (s.slot k).state = .pending := by
  unfold eligible at h
  split at h
  · exact absurd h (by simp)
  · simp only [Bool.and_eq_true, beq_iff_eq] at h
    exact h.1.1.1.1.1

/-- A choice names a winner that is PENDING. -/
theorem pending_choice (s : State) (k : SlotNo) (g : GateNo) (u : UnitNo) (h : s.choice = some (k, g, u)) :
    (s.slot k).state = .pending := by
  unfold choice at h
  split at h
  · exact absurd h (by simp)
  · next j w =>
    split at h
    · exact absurd h (by simp)
    · split at h
      · exact absurd h (by simp)
      · have e : j = k := by
          have := Option.some.inj h
          exact (Prod.mk.inj this).1
        exact e ▸ s.pending_eligible j (s.eligible_winner j w)

theorem touch_passes (n : Nat) (s : State) : Touch m s (State.passes n s) := by
  induction n generalizing s with
  | zero => exact Touch.refl s
  | succ n ih =>
    unfold passes
    split
    · exact Touch.refl s
    · next k g u h => exact (s.touch_grant _ _ _ (s.pending_choice k g u h)).trans (ih _)

theorem touch_takeRound (s : State) : Touch m s s.takeRound :=
  ((touch_passes 3 s).trans (Touch.closeRound _)).ite (Touch.refl s)

/-! ### The order table -/

theorem touch_offer (s : State) (k : SlotNo) : Touch m s (s.offer k) := (s.touch_modRunner _).ite (Touch.refl s)

theorem touch_complete (s : State) (k : SlotNo) (e : Ending) : Touch m s (s.complete k e) := by
  unfold complete
  simp only
  split
  · exact Touch.refl s
  · next o _ =>
    have fits : SlotFits s k ((s.slot k).completed o e s.clock) := by
      unfold Slot.completed
      cases o.rep
      · exact .of (by simp) fun _ _ => .inr rfl
      · exact .of (by simp) fun _ _ => .inl rfl
    exact ((Touch.setSlot s k _ fits).trans (Touch.notify _ _)).trans (touch_offer _ k)

theorem touch_completeRunning (s : State) (k : SlotNo) (o : OrderOutcome) (c : Option TripCause) (l r : Option Int) :
    Touch m s (s.completeRunning k o c l r) :=
  ((s.touch_complete k _).trans (touch_noteRunning _)).ite (Touch.refl s)

theorem touch_completeGranted (s : State) (k : SlotNo) (o : OrderOutcome) (c : Option TripCause) (l r : Option Int) :
    Touch m s (s.completeGranted k o c l r) :=
  ((s.touch_complete k _).trans (touch_handBackOf _ _)).ite (Touch.refl s)

theorem touch_dropLock (s : State) (k : SlotNo) : Touch m s (s.dropLock k) := (Touch.unlock s).ite (Touch.refl s)

theorem touch_freeSlot (s : State) (k : SlotNo) : Touch m s (s.freeSlot k) :=
  ((Touch.rewrite s k _ fun _ => rfl).trans (touch_modRunner _ _)).ite (Touch.rewrite s k _ fun _ => rfl)

theorem touch_dropOrder (s : State) (k : SlotNo) : Touch m s (s.dropOrder k) :=
  ((s.touch_freeSlot k).trans (touch_noteRunning _)).ite (Touch.refl s)

theorem touch_writeOrder (s : State) (k : SlotNo) (o : Order) (w : Owner) : Touch m s (s.writeOrder k o w) := by
  have h : (Slot.written o w).state = .free → Slot.written o w = Slot.empty := by
    unfold Slot.written
    simp only
    split
    · simp
    · simp
  exact (Touch.rewrite s k _ h).ite ((Touch.rewrite s k _ h).trans (Touch.openRound _))

theorem touch_ungrant (s : State) (k : SlotNo) : Touch m s (s.ungrant k) := by
  unfold ungrant
  simp only
  split
  · next h =>
    refine ((Touch.setSlot s k _ (.of (by simp [Slot.returned]) fun l e => ?_)).trans (Touch.openRound _)).trans
      (touch_handBackOf _ _)
    exact absurd (l k (beq_iff_eq.2 e)) (by rw [h]; simp)
  · exact Touch.refl s

/-- The start of warm reset for one slot, the lock having been released (R74). -/
theorem touch_resetSlot (s : State) (k : SlotNo) (h : s.lock = none) : Touch m s (s.resetSlot k) := by
  have no : ∀ {p : Prop}, s.lock = some k → p := fun e => absurd (h.symm.trans e) (by simp)
  unfold resetSlot
  simp only
  split
  · next st => exact Touch.setSlot s k _ ⟨fun e => absurd (st.symm.trans e) (by simp), fun _ => no⟩
  · exact (Touch.setSlot s k _ ⟨fun _ => rfl, fun _ => no⟩).trans (touch_handBackOf _ _)

/-- The start of warm reset at the table, the lock having been released (R74). -/
theorem touch_resetSlots (l : List SlotNo) (s : State) (h : s.lock = none) : Touch m s (l.foldl State.resetSlot s) := by
  induction l generalizing s with
  | nil => exact Touch.refl s
  | cons k l ih =>
    have t : Touch m s (s.resetSlot k) := s.touch_resetSlot k h
    exact t.trans (ih _ (t.lock.elim (fun e => e.trans h) id))

theorem touch_releaseLock (s : State) (k : SlotNo) : Touch m s (s.releaseLock k) := by
  unfold releaseLock
  simp only
  split
  · exact ((Touch.unlock s).trans (Touch.setSlot _ k _ (.of (by simp) fun _ e => absurd e (by simp [setLock])))).trans
      (Touch.openRound _)
  · exact (Touch.unlock s).trans (touch_offer _ k)

theorem touch_releaseOther (s : State) (k : SlotNo) : Touch m s (s.releaseOther k) := by
  unfold releaseOther
  split
  · exact (Touch.refl s).ite (s.touch_releaseLock _)
  · exact Touch.refl s

theorem touch_matchSlot (e : TideEvent) (s : State) (k : SlotNo) : Touch m s (State.matchSlot e s k) := by
  unfold matchSlot
  split
  · next h =>
    have armed : (s.slot k).state = .armed := by
      unfold Slot.matches at h
      simp only [Bool.and_eq_true, beq_iff_eq] at h
      exact h.1
    split
    · exact s.touch_modSlot k _ (.of (by simp [armed]) fun _ _ => .inl armed)
    · next l =>
      refine (s.touch_modSlot k _ (.of (by simp) fun _ e => ?_)).trans (Touch.openRound _)
      exact absurd (beq_iff_eq.2 e) l
  · exact Touch.refl s

theorem touch_matchEvent (s : State) (e : TideEvent) : Touch m s (s.matchEvent e) :=
  (Touch.refl s).ite (Touch.foldl (fun s k => touch_matchSlot e s k) allSlots s)

/-! ### Trips, locking, parking (chapter 2) -/

theorem touch_endOrder (s : State) (r : GateRec) (o : OrderOutcome) (c : Option TripCause) :
    Touch m s (s.endOrder r o c) := by
  unfold endOrder
  split
  · exact Touch.refl s
  · exact (s.touch_dropOrder _).ite (s.touch_completeRunning _ _ _ _ _)

theorem touch_tripGate (s : State) (g : GateNo) (c : TripCause) (f : BitVec 7) (e : Concern) :
    Touch (Eq g) s (s.tripGate g c f e) := by
  unfold tripGate
  simp only
  refine Touch.trans ?_ (touch_modGate _ rfl _)
  split
  · split
    · exact ((Touch.setGate s rfl _).trans (Touch.notify _ _)).trans (touch_completeGranted _ _ _ _ _ _)
    · exact (Touch.setGate s rfl _).trans (Touch.notify _ _)
  · exact (((Touch.setGate s rfl _).trans (Touch.notify _ _)).trans (touch_endOrder _ _ _ _)).trans (touch_releaseUnit _ _)

theorem touch_encoderFault (s : State) (g : GateNo) (e : HoistEnd) : Touch (Eq g) s (s.encoderFault g e) := by
  unfold encoderFault
  split
  · exact Touch.refl s
  · exact touch_modGate s rfl _
  · exact s.touch_tripGate g _ _ _

theorem touch_park (s : State) (g : GateNo) : Touch (Eq g) s (s.park g) := by
  unfold park
  simp only
  exact (((Touch.setGate s rfl _).trans (touch_endOrder _ _ _ _)).trans (touch_releaseUnit _ _)).trans (touch_modMove _ rfl _)

theorem touch_enterLocking (s : State) (g : GateNo) (o : OrderOutcome) : Touch (Eq g) s (s.enterLocking g o) :=
  ((touch_modGate s rfl _).trans (touch_park _ g)).ite (touch_modGate s rfl _)

theorem touch_countQuiet (s : State) (g : GateNo) : Touch (Eq g) s (s.countQuiet g) :=
  (((touch_modMove s rfl _).trans (touch_enterLocking _ g _)).ite (touch_modMove s rfl _)).ite (touch_modMove s rfl _)

theorem touch_startMove (s : State) (g : GateNo) (k : SlotNo) (u : UnitNo) (o : Order) (t : Option Int) (b : Bool) :
    Touch (Eq g) s (s.startMove g k u o t b) :=
  ((touch_modGate s rfl _).trans (touch_modGate _ rfl _)).ite (touch_modGate s rfl _)

end Sys2Proof.Machine.State
end

