-- ==== Sys2Proof/Laws/KeptMoves.lean ====
section
/-! SUPPORT. `Touch` for pops, TRAVEL, changes of target, samples, stops (chapters 2, 7 and 8), line-up, and the sequence
runner (chapter 9). -/

namespace Sys2Proof.Machine.State

variable {m : GateNo → Prop}

/-! ### Pops and TRAVEL -/

theorem touch_pop (s : State) (g : GateNo) : Touch (Eq g) s (s.pop g) := by
  unfold pop
  simp only
  split
  · exact Touch.refl s
  · next p rest h =>
    have hq : Touch (Eq g) s (s.setQueue g (s.queue g).popped) := .popped s rfl
    refine Touch.trans ?_ (touch_modGate _ rfl _)
    split
    · split
      · exact (hq.trans (Touch.notify _ _)).trans (Touch.notify _ _)
      · exact hq.trans (Touch.notify _ _)
    · split
      · exact hq.trans (Touch.notify _ _)
      · exact hq

theorem touch_enterHeld (s : State) (g : GateNo) : Touch (Eq g) s (s.enterHeld g) := (touch_modGate s rfl _).trans (Touch.notify _ _)

theorem touch_streamReach (n : Nat) (g : GateNo) (s : State) : Touch (Eq g) s (State.streamReach n g s) := by
  induction n generalizing s with
  | zero => exact Touch.refl s
  | succ n ih =>
    unfold streamReach
    simp only
    split
    · exact Touch.refl s
    · split
      · exact s.touch_enterLocking g _
      · split
        · exact touch_modGate s rfl _
        · split
          · exact s.touch_enterHeld g
          · exact (s.touch_pop g).trans (ih _)

theorem touch_reachTest (s : State) (g : GateNo) : Touch (Eq g) s (s.reachTest g) := by
  unfold reachTest
  simp only
  split
  · exact touch_streamReach _ g s
  · exact (touch_modGate s rfl _).ite (Touch.refl s)

theorem touch_setValves (s : State) (g : GateNo) : Touch (Eq g) s (s.setValves g) := (touch_modGate s rfl _).ite (Touch.refl s)

theorem touch_travelEntry (s : State) (g : GateNo) : Touch (Eq g) s (s.travelEntry g) := by
  unfold travelEntry
  simp only
  split
  · exact (touch_modGate s rfl _).trans (touch_tripGate _ g _ _ _)
  · exact ((touch_modGate s rfl _).trans (touch_reachTest _ g)).trans (touch_setValves _ g)

theorem touch_enterTravel (s : State) (g : GateNo) : Touch (Eq g) s (s.enterTravel g) := by
  unfold enterTravel
  simp only
  refine (touch_modGate s rfl fun r => { r with state := .travel, phase := none, move := { r.move with hold := none } }).trans ?_
  split
  · refine Touch.ite (touch_enterLocking _ g _) (Touch.ite (touch_travelEntry _ g) (Touch.ite (touch_enterHeld _ g) ?_))
    exact (touch_pop _ g).trans (touch_travelEntry _ g)
  · exact (touch_modGate _ rfl _).trans (touch_travelEntry _ g)
  · exact (touch_modGate _ rfl _).trans (touch_travelEntry _ g)

theorem touch_retarget (s : State) (g : GateNo) (rule : EnvRule) (t : Int) : Touch (Eq g) s (s.retarget g rule t) := by
  unfold retarget
  simp only
  refine (touch_modGate s rfl fun r => r.changeTarget rule t).trans ?_
  split
  · exact (touch_reachTest _ g).trans (touch_setValves _ g)
  · exact touch_modMove _ rfl _
  · exact (touch_enterTravel _ g).ite (Touch.refl _)
  · exact Touch.refl _

theorem touch_checkFall (s : State) (g : GateNo) : Touch (Eq g) s (s.checkFall g) := by
  unfold checkFall
  split
  · exact s.touch_retarget g _ _
  · exact Touch.refl s

theorem touch_linedUp (s : State) (u : UnitNo) (k : SlotNo) (g : GateNo) : Touch (Eq g) s (s.linedUp u k g) := by
  unfold linedUp
  simp only
  refine (s.touch_modUnit u _ fun r _ => lawful_assigned r g).trans ?_
  split
  · next o st _ =>
    split
    · refine (touch_modSlot _ k _ (.of (by simp [Slot.started]) fun l e => ?_)).trans (touch_startMove _ _ _ _ _ _ _)
      have l' : (s.slot k).state = .armed ∨ (s.slot k).state = .done := l k (beq_iff_eq.2 e)
      rw [st] at l'
      exact absurd l' (by simp)
    · exact (touch_complete _ k _).trans (touch_releaseUnit _ _)
  · exact touch_releaseUnit _ _

/-! ### Samples, feedback, timers, stops -/

theorem touch_travelSample (s : State) (g : GateNo) (e : HoistEnd) : Touch (Eq g) s (s.travelSample g e) := by
  unfold travelSample
  simp only
  refine (touch_modGate s rfl fun r => r.modEnd e EndRec.watch).trans ?_
  split
  · exact touch_tripGate _ g _ _ _
  · exact ((touch_reachTest _ g).trans (touch_modGate _ rfl _)).ite (touch_reachTest _ g)

theorem touch_settlingSample (s : State) (g : GateNo) : Touch (Eq g) s (s.settlingSample g) :=
  (s.touch_tripGate g _ _ _).ite (s.touch_countQuiet g)

theorem touch_heldSample (s : State) (g : GateNo) : Touch (Eq g) s (s.heldSample g) :=
  (s.touch_tripGate g _ _ _).ite (Touch.refl s)

theorem touch_buildSample (s : State) (g : GateNo) (e : HoistEnd) : Touch (Eq g) s (s.buildSample g e) := by
  unfold buildSample
  simp only
  exact ((touch_modGate s rfl _).trans (touch_enterTravel _ g)).ite (touch_modGate s rfl _)

theorem touch_afterSample (s : State) (g : GateNo) (e : HoistEnd) (r : SampleResult) : Touch (Eq g) s (s.afterSample g e r) := by
  unfold afterSample
  split
  · exact s.touch_buildSample g e
  · exact s.touch_travelSample g e
  · exact s.touch_settlingSample g
  · exact s.touch_heldSample g
  · exact Touch.refl s

theorem touch_encoderSample (s : State) (g : GateNo) (ch : Channel) (c p t : Nat) :
    Touch (Eq g) s (s.encoderSample g ch c p t) := by
  unfold encoderSample
  simp only
  refine (Touch.refl s).ite ?_
  split
  · exact (touch_modGate s rfl _).trans (touch_encoderFault _ g _)
  · exact (touch_modGate s rfl _).trans (touch_afterSample _ g _ _)

theorem touch_encoderSilence (s : State) (g : GateNo) (e : HoistEnd) : Touch (Eq g) s (s.encoderSilence g e) := by
  unfold encoderSilence
  simp only
  split
  · exact Touch.refl s
  · exact (touch_modGate s rfl _).ite ((touch_modGate s rfl _).trans (touch_encoderFault _ g _))

theorem touch_pinChanged (s : State) (g : GateNo) (e : HoistEnd) : Touch (Eq g) s (s.pinChanged g e) := by
  unfold pinChanged
  simp only
  split
  · exact (touch_modGate s rfl _).ite (Touch.refl s)
  · exact (Touch.refl s).ite (s.touch_tripGate g _ _ _)
  · exact (Touch.refl s).ite (s.touch_tripGate g _ _ _)
  · exact (Touch.refl s).ite (s.touch_tripGate g _ _ _)
  · exact (Touch.refl s).ite (s.touch_tripGate g _ _ _)
  · exact (s.touch_park g).ite (Touch.refl s)
  · exact (touch_modGate s rfl _).ite (Touch.refl s)
  · exact Touch.refl s

theorem touch_releaseExpired (s : State) (g : GateNo) : Touch (Eq g) s (s.releaseExpired g) :=
  (s.touch_tripGate g _ _ _).ite (Touch.refl s)
theorem touch_buildExpired (s : State) (g : GateNo) : Touch (Eq g) s (s.buildExpired g) :=
  (s.touch_tripGate g _ _ _).ite (Touch.refl s)
theorem touch_stallExpired (s : State) (g : GateNo) (e : HoistEnd) : Touch (Eq g) s (s.stallExpired g e) :=
  (s.touch_tripGate g _ _ _).ite (Touch.refl s)
theorem touch_settleExpired (s : State) (g : GateNo) : Touch (Eq g) s (s.settleExpired g) :=
  (s.touch_enterLocking g _).ite (Touch.refl s)
theorem touch_lockExpired (s : State) (g : GateNo) : Touch (Eq g) s (s.lockExpired g) :=
  (s.touch_tripGate g _ _ _).ite (Touch.refl s)
theorem touch_tripLockExpired (s : State) (g : GateNo) : Touch (Eq g) s (s.tripLockExpired g) :=
  (touch_modGate s rfl _).ite (Touch.refl s)
theorem touch_holdExpired (s : State) (g : GateNo) : Touch (Eq g) s (s.holdExpired g) :=
  (s.touch_enterLocking g _).ite (Touch.refl s)

theorem touch_stopMove (s : State) (g : GateNo) : Touch (Eq g) s (s.stopMove g) := by
  unfold stopMove
  split
  · exact s.touch_enterLocking g _
  · exact s.touch_enterLocking g _
  · exact s.touch_enterLocking g _
  · exact s.touch_enterLocking g _
  · exact s.touch_enterLocking g _
  · exact touch_modMove s rfl _
  · exact Touch.refl s

theorem touch_cutStream (s : State) (g : GateNo) : Touch (Eq g) s (s.cutStream g) := by
  unfold cutStream
  split
  · split
    · exact touch_modMove s rfl _
    · exact touch_modMove s rfl _
    · exact touch_modMove s rfl _
    · exact s.touch_enterLocking g _
    · exact Touch.refl s
  · exact Touch.refl s

theorem touch_resetMove (s : State) (g : GateNo) : Touch (Eq g) s (s.resetMove g) := by
  unfold resetMove
  split
  · exact (touch_modMove s rfl _).trans (touch_enterLocking _ g _)
  · exact (touch_modMove s rfl _).trans (touch_enterLocking _ g _)
  · exact (touch_modMove s rfl _).trans (touch_enterLocking _ g _)
  · exact (touch_modMove s rfl _).trans (touch_enterLocking _ g _)
  · exact (touch_modMove s rfl _).trans (touch_enterLocking _ g _)
  · exact touch_modMove s rfl _
  · exact Touch.refl s

theorem touch_losePower (s : State) (g : GateNo) : Touch (Eq g) s (s.losePower g) :=
  (s.touch_tripGate g _ _ _).ite (Touch.refl s)

/-- A fault of an ASSIGNED unit touches the unit's gate alone. -/
theorem touch_assignedFault (s : State) (u : UnitNo) :
    Touch (fun g => (s.unit u).gate = some g) s (s.assignedFault u) := by
  unfold assignedFault
  simp only
  split
  · next g h => exact (s.touch_takeOut u _).trans ((touch_losePower _ g).mono fun _ e => e ▸ h)
  · exact s.touch_takeOut u _

theorem touch_faultAsserted (s : State) (u : UnitNo) :
    Touch (fun g => (s.unit u).gate = some g) s (s.faultAsserted u) := by
  unfold faultAsserted
  split
  · exact s.touch_assignedFault u
  · exact s.touch_unitFault u

/-! ### The sequence runner (chapter 9) -/

theorem touch_endSequence (s : State) (o : EndOutcome) : Touch m s (s.endSequence o) :=
  (Touch.setRunner s _).trans (Touch.notify _ _)

theorem touch_endIfEmpty (s : State) : Touch m s s.endIfEmpty := (s.touch_endSequence _).ite (Touch.refl s)

theorem touch_withdraw (s : State) (k : SlotNo) : Touch m s (s.withdraw k) :=
  (((s.touch_freeSlot k).trans (touch_handBackOf _ _)).trans (touch_modRunner _ _)).ite (Touch.refl s)

theorem touch_windDown (s : State) (o : EndOutcome) (c : Option FailCause) (k : Option SlotNo) :
    Touch m s (s.windDown o c k) := by
  unfold windDown
  simp only
  exact ((s.touch_modRunner _).trans (Touch.foldl touch_withdraw _ _)).trans (touch_endIfEmpty _)

theorem touch_failStep (s : State) (c : FailCause) (k : Option SlotNo) : Touch m s (s.failStep c k) :=
  s.touch_windDown _ _ _

theorem touch_interfere (s : State) (k : SlotNo) : Touch m s (s.interfere k) := by
  unfold interfere
  simp only
  split
  · split
    · exact (s.touch_modRunner _).trans (touch_failStep _ _ _)
    · exact (s.touch_modRunner _).trans (touch_endIfEmpty _)
    · exact s.touch_modRunner _
  · exact Touch.refl s

theorem touch_stopRunner (s : State) : Touch m s s.stopRunner := by
  unfold stopRunner
  split
  · exact s.touch_windDown _ _ _
  · exact s.touch_windDown _ _ _
  · exact s.touch_windDown _ _ _
  · exact Touch.refl s

theorem touch_postStep (s : State) (d : SequenceDef) (i : StepNo) (c : List (GateNo × Int)) (f : List SlotNo) :
    Touch m s (s.postStep d i c f) := by
  unfold postStep
  simp only
  exact (Touch.foldl (fun s _ => s.touch_writeOrder _ _ _) _ s).trans (touch_modRunner _ _)

theorem touch_stepDone (s : State) (i : StepNo) : Touch m s (s.stepDone i) := by
  unfold stepDone
  exact (Touch.notify s _).trans (touch_modRunner _ _)

theorem touch_attemptOnce (s : State) : Touch m s s.attemptOnce := by
  unfold attemptOnce
  simp only
  split
  · exact (s.touch_stepDone _).ite ((s.touch_failStep _ _).ite ((s.touch_failStep _ _).ite
      ((Touch.refl s).ite (s.touch_postStep _ _ _ _))))
  · exact Touch.refl s

theorem touch_dwellNext (s : State) : Touch m s s.dwellNext := by
  unfold dwellNext
  split
  · exact (s.touch_modRunner _).ite ((s.touch_modRunner _).ite (s.touch_endSequence _))
  · exact Touch.refl s

theorem touch_runOn (n : Nat) (s : State) : Touch m s (State.runOn n s) := by
  induction n generalizing s with
  | zero => exact Touch.refl s
  | succ n ih =>
    unfold runOn
    simp only
    split
    · exact ((s.touch_dwellNext.trans (touch_attemptOnce _)).trans (ih _)).ite s.touch_dwellNext
    · exact Touch.refl s

theorem touch_attempt (s : State) : Touch m s s.attempt := s.touch_attemptOnce.trans (touch_runOn _ _)

theorem touch_dwellExpired (s : State) : Touch m s s.dwellExpired :=
  (s.touch_dwellNext.trans (touch_attempt _)).ite s.touch_dwellNext

theorem touch_dwellEvent (s : State) : Touch m s s.dwellEvent := s.touch_dwellExpired.ite (Touch.refl s)

theorem touch_dueAttempt (s : State) : Touch m s s.dueAttempt :=
  ((s.touch_modRunner _).trans (touch_attempt _)).ite (Touch.refl s)

theorem touch_collected (s : State) (k : SlotNo) (o : OrderOutcome) : Touch m s (s.collected k o) := by
  unfold collected
  simp only
  have h : Touch m s _ := (s.touch_freeSlot k).trans (touch_modRunner _ fun r => (r.remove k).record o)
  refine h.trans ?_
  split
  · exact (((touch_stepDone _ _).trans (touch_runOn _ _)).ite (Touch.refl _)).ite (touch_failStep _ _ _)
  · exact touch_endIfEmpty _

theorem touch_collect (s : State) (k : SlotNo) : Touch m s (s.collect k) := by
  unfold collect
  simp only
  split
  · refine (s.touch_modRunner fun r => { r with offers := r.offers.erase k }).trans ?_
    split
    · exact (Touch.refl _).ite (touch_collected _ _ _)
    · exact touch_interfere _ k
  · exact Touch.refl s

theorem touch_startSequence (s : State) (d : SequenceDef) : Touch m s (s.startSequence d) :=
  (Touch.setRunner s _).trans (touch_attempt _)

end Sys2Proof.Machine.State
end

