-- ==== Sys2Proof/Laws/KeptMode.lean ====
section
/-! SUPPORT. What the operations of mode control keep (chapter 10), among them the end of every event. -/

namespace Sys2Proof.Machine

open Sys2Proof.Safety

/-- `Kept` without the mode record and the envelope unit: the clock, the reset line, the arbitration mode, the tide
monitor, the stage table's cells, the definition, the input levels and the queue of commands stand as they were; the laws
of the drain flavour (R184), of the link port (R202), of the pool (R143), of FREE slots and the lock (R48, R64) and of
the units' outputs (R93) still hold if they held. -/
structure KeptButMode (s t : State) : Prop where
  clock : t.clock = s.clock
  resetHeld : t.resetHeld = s.resetHeld
  arbitration : t.arbitration = s.arbitration
  tide : t.tide = s.tide
  definition : t.definition = s.definition
  steps : t.stage.steps = s.stage.steps
  inputs : t.inputs = s.inputs
  pending : t.pending = s.pending
  flavour : FlavourLawful s → FlavourLawful t
  link : LinkBounded s → LinkBounded t
  fit : QueuesFit s → QueuesFit t
  apart : PartitionsApart s → PartitionsApart t
  free : FreeEmpty s → FreeEmpty t
  locked : LockLawful s → LockLawful t
  units : UnitsLawful s → UnitsLawful t

theorem KeptButMode.refl (s : State) : KeptButMode s s :=
  ⟨rfl, rfl, rfl, rfl, rfl, rfl, rfl, rfl, id, id, id, id, id, id, id⟩

theorem KeptButMode.trans {s t u : State} (h : KeptButMode s t) (k : KeptButMode t u) : KeptButMode s u :=
  ⟨k.clock.trans h.clock, k.resetHeld.trans h.resetHeld, k.arbitration.trans h.arbitration, k.tide.trans h.tide,
    k.definition.trans h.definition, k.steps.trans h.steps, k.inputs.trans h.inputs, k.pending.trans h.pending,
    k.flavour ∘ h.flavour, k.link ∘ h.link, k.fit ∘ h.fit, k.apart ∘ h.apart,
    k.free ∘ h.free, k.locked ∘ h.locked, k.units ∘ h.units⟩

theorem KeptButMode.ite {s a b : State} {p : Prop} [Decidable p] (ha : KeptButMode s a) (hb : KeptButMode s b) :
    KeptButMode s (if p then a else b) := by
  split
  · exact ha
  · exact hb

theorem KeptButMode.foldl {α : Type} {f : State → α → State} (h : ∀ s x, KeptButMode s (f s x)) (l : List α)
    (s : State) : KeptButMode s (l.foldl f s) := by
  induction l generalizing s with
  | nil => exact KeptButMode.refl s
  | cons x l ih => exact (h s x).trans (ih _)

theorem Kept.butMode {s t : State} (h : Kept s t) : KeptButMode s t := by
  refine ⟨h.clock, h.resetHeld, h.arbitration, h.tide, h.definition, congrArg Stage.steps h.stage, h.inputs,
    h.pending, fun f => ?_, h.link, h.fit, h.apart, h.free, h.locked, h.units⟩
  unfold FlavourLawful at f ⊢
  rw [h.flavour, h.mode]
  exact f

namespace State

/-- A change of mode with a flavour exactly in DRAINING (R184). -/
theorem keptBM_changeMode (s : State) (m : DeviceMode) (f : Option Flavour) (c : ModeCause)
    (h : f.isSome = (m == .draining)) : KeptButMode s (s.changeMode m f c) :=
  ⟨rfl, rfl, rfl, rfl, rfl, rfl, rfl, rfl, fun _ => h, s.link.take_bounded _, id, id, id, id, id⟩

/-- Every queue emptied: the partitions stand (R164). -/
theorem keptBM_emptied (s : State) :
    KeptButMode s { s with queues := Vector.ofFn fun g => (s.queue g).emptied } := by
  have q : ∀ g, State.queue { s with queues := Vector.ofFn fun g => (s.queue g).emptied } g = (s.queue g).emptied := by
    intro g
    exact Vector.getElem_ofFn _
  refine ⟨rfl, rfl, rfl, rfl, rfl, rfl, rfl, rfl, id, id, fun f g => ?_, fun f a b ne nz => ?_, id, id, id⟩
  · rw [q]
    exact ⟨Nat.zero_le _, (f g).2⟩
  · rw [q] at nz
    rw [q, q]
    exact f a b ne nz

theorem keptBM_resetEndTest (s : State) : KeptButMode s s.resetEndTest :=
  (s.keptBM_emptied.trans (keptBM_changeMode _ _ _ _ rfl)).ite (KeptButMode.refl s)

theorem keptBM_takeReport (s : State) : KeptButMode s s.takeReport := by
  unfold takeReport
  simp only
  split
  · refine (Touch.markReport (m := fun _ => True) s false).kept.butMode.trans ?_
    split
    · exact keptBM_changeMode _ _ _ _ rfl
    · exact keptBM_resetEndTest _
    · exact KeptButMode.refl _
  · exact KeptButMode.refl s

/-- The end of an event (R78, R189). -/
theorem keptBM_finish (s : State) : KeptButMode s s.finish := s.keptBM_takeReport.trans (touch_takeRound (m := fun _ => True) _).kept.butMode

theorem keptBM_toRun (s : State) : KeptButMode s s.toRun :=
  (s.keptBM_changeMode _ _ _ rfl).trans (Touch.openRound (m := fun _ => True) _).kept.butMode

theorem keptBM_beginHold (s : State) : KeptButMode s s.beginHold := by
  unfold beginHold
  simp only
  exact (s.keptBM_changeMode _ _ _ rfl).trans
    (((Touch.foldl touch_ungrant _ _).trans (Touch.foldl (fun s g => (s.touch_cutStream g).any) _ _)).trans (touch_noteRunning _)).kept.butMode

theorem touch_stopItem (s : State) (i : StopItem) : Touch (fun _ => True) s (s.stopItem i) := by
  unfold stopItem
  split
  · exact (s.touch_stopMove _).any
  · split
    · exact s.touch_completeGranted _ _ _ _ _
    · exact Touch.refl s
  · exact s.touch_stopRunner

theorem touch_giveStops (s : State) : Touch (fun _ => True) s s.giveStops := by
  unfold giveStops
  simp only
  exact (((Touch.bump s).ite (Touch.refl s)).trans (Touch.foldl touch_stopItem _ _)).trans (touch_noteRunning _)

theorem keptBM_beginStop (s : State) : KeptButMode s s.beginStop :=
  (s.keptBM_changeMode _ _ _ rfl).trans (touch_giveStops _).kept.butMode

/-- The start of warm reset at the blocks (R190, step 4). -/
theorem keptBM_resetBlocks (s : State) : KeptButMode s s.resetBlocks := by
  have h : Touch (fun _ => True) s (allGates.foldl State.resetMove (allSlots.foldl State.resetSlot (s.setLock none))) :=
    ((Touch.unlock s).trans (touch_resetSlots _ _ rfl)).trans (Touch.foldl (fun s g => (s.touch_resetMove g).any) _ _)
  unfold resetBlocks
  generalize allGates.foldl State.resetMove (allSlots.foldl State.resetSlot (s.setLock none)) = t at h ⊢
  exact h.kept.butMode.trans ⟨rfl, rfl, rfl, rfl, rfl, rfl, rfl, rfl, id, id, id, id, id, id, id⟩

/-- The hand-over to the envelope unit (R131). -/
theorem keptBM_handOver (s : State) (c : HeadChange) : KeptButMode s (s.handOver c) := by
  unfold handOver
  simp only
  have h : KeptButMode s (s.setEnvelope (s.envelope.follow c)) :=
    ⟨rfl, rfl, rfl, rfl, rfl, rfl, rfl, rfl, id, id, id, id, id, id, id⟩
  exact (h.trans (((Touch.bump _).ite (Touch.refl _)).trans (Touch.foldl (fun s g => (s.touch_checkFall g).any) _ _)).kept.butMode).trans
    (keptBM_takeReport _)

/-- A tide event handed on (R126). -/
theorem touch_handEvent (s : State) (e : TideEvent) : Touch (fun _ => True) s (s.handEvent e) :=
  (Touch.notify s _).trans (touch_matchEvent _ e)

end State

end Sys2Proof.Machine
end

