-- ==== Sys2Proof/Laws/Ends.lean ====
section
/-! SUPPORT. The end of an event: both marks clear (log 17), and nothing happens where none is set; and a free order is a
reordering (logs 8 and 9). -/

namespace Sys2Proof.Machine

/-! ### Free orders -/

theorem insertByKey_perm {α : Type} (k : Nat) (x : α) (l : List (Nat × α)) : (insertByKey k x l).Perm ((k, x) :: l) := by
  induction l with
  | nil => exact List.Perm.refl _
  | cons p l ih =>
    unfold insertByKey
    split
    · exact List.Perm.refl _
    · exact (ih.cons p).trans (List.Perm.swap _ _ _)

theorem sortByKey_perm {α : Type} (c i : Nat) (l : List α) : ((sortByKey c i l).map Prod.snd).Perm l := by
  induction l generalizing i with
  | nil => exact List.Perm.refl _
  | cons x l ih => exact ((insertByKey_perm _ _ _).map Prod.snd).trans ((ih (i + 1)).cons x)

/-- A free order has the same items (logs 8 and 9). -/
theorem freeOrder_perm {α : Type} (c : Nat) (l : List α) : (freeOrder c l).Perm l := by
  unfold freeOrder
  split
  · exact List.Perm.refl _
  · exact List.Perm.refl _
  · exact sortByKey_perm c 0 _

/-! ### A round leaves the report mark -/

namespace State

theorem report_returnGrant (s : State) (k : SlotNo) : (s.returnGrant k).marks.reportDue = s.marks.reportDue := by
  unfold returnGrant
  split
  · rfl
  · rfl

theorem report_returnReserved (s : State) (k : Option SlotNo) :
    (s.returnReserved k).marks.reportDue = s.marks.reportDue := by
  unfold returnReserved
  split
  · exact s.report_returnGrant _
  · rfl

theorem report_passStarter (l : List UnitNo) (s : State) :
    (State.passStarter l s).marks.reportDue = s.marks.reportDue := by
  induction l generalizing s with
  | nil => rfl
  | cons u l ih =>
    unfold passStarter
    split
    · exact (report_returnReserved _ _).trans (ih _)
    · rfl

theorem report_grant (s : State) (k : SlotNo) (g : GateNo) (u : UnitNo) :
    (s.grant k g u).marks.reportDue = s.marks.reportDue := by
  unfold grant grantUnit
  split
  · unfold requestStart
    split
    · rfl
    · rfl
    · exact (report_returnGrant _ _).trans (report_passStarter _ _)
    · exact report_returnGrant _ _
  · rfl
  · rfl

theorem report_passes (n : Nat) (s : State) : (State.passes n s).marks.reportDue = s.marks.reportDue := by
  induction n generalizing s with
  | zero => rfl
  | succ n ih =>
    unfold passes
    split
    · rfl
    · exact (ih _).trans (s.report_grant _ _ _)

/-- After the report has been taken none is due (R189). -/
theorem report_takeReport (s : State) : s.takeReport.marks.reportDue = false := by
  unfold takeReport
  simp only
  split
  · split
    · rfl
    · unfold resetEndTest
      split
      · rfl
      · rfl
    · rfl
  · next h => exact Bool.eq_false_iff.2 h

/-- After an event no report and no round is due (R78, R189; log 17). -/
theorem marks_finish (s : State) : s.finish.marks = ⟨false, false⟩ := by
  have report : s.finish.marks.reportDue = false := by
    unfold finish takeRound
    split
    · exact (report_passes 3 _).trans s.report_takeReport
    · exact s.report_takeReport
  have round : s.finish.marks.roundDue = false := by
    unfold finish takeRound
    split
    · rfl
    · next h => exact Bool.eq_false_iff.2 h
  cases h : s.finish.marks
  rw [h] at report round
  simp only at report round
  rw [report, round]

/-- Where nothing is due the end of the event changes nothing. -/
theorem finish_clear (s : State) (h : s.marks = ⟨false, false⟩) : s.finish = s := by
  unfold finish takeReport takeRound
  simp [h]

end State

end Sys2Proof.Machine
end

