-- ==== Sys2Proof/Laws/Gates.lean ====
section
/-! SUPPORT. What a trip, a parking, an entry to LOCKING and a move in TRAVEL leave in the gate's record, and with it: a
law of gate records that the named record operations keep is kept by every operation on a gate. The outputs of a state and
the clear move of a gate at rest are two such laws. -/

namespace Sys2Proof.Machine

open Sys2Proof.Safety

/-! ### The record an operation leaves -/

/-- A trip leaves a TRIPPED record (R33). -/
theorem State.gate_tripGate (s : State) (g : GateNo) (c : TripCause) (f : BitVec 7) (e : Concern) :
    ∃ b, (s.tripGate g c f e).gate g = ((s.gate g).tripped c f e s.clock).afterTrip b := by
  obtain ⟨t, ht, hg⟩ : ∃ t : State, s.tripGate g c f e = t.modGate g (fun r => r.afterTrip (t.bothPins g .engaged)) ∧
      t.gate g = (s.gate g).tripped c f e s.clock := by
    refine ⟨_, rfl, ?_⟩
    split
    · split
      · rw [((State.touch_completeGranted (m := fun _ => False) _ _ _ _ _ _).others (g := g) not_false).1]
        exact State.gate_setGate_self _ _ _
      · exact State.gate_setGate_self _ _ _
    · rw [((State.touch_releaseUnit (m := fun _ => False) _ _).others (g := g) not_false).1,
        ((State.touch_endOrder (m := fun _ => False) _ _ _ _).others (g := g) not_false).1]
      exact State.gate_setGate_self _ _ _
  exact ⟨_, by rw [ht, State.modGate, State.gate_setGate_self, hg]⟩

/-- Parking leaves a PARKED record with a clear move (R31). -/
theorem State.gate_park (s : State) (g : GateNo) :
    (s.park g).gate g = { (s.gate g).parked with move := .empty } := by
  unfold State.park
  simp only
  unfold State.modMove State.modGate
  rw [State.gate_setGate_self, ((State.touch_releaseUnit (m := fun _ => False) _ _).others (g := g) not_false).1,
    ((State.touch_endOrder (m := fun _ => False) _ _ _ _).others (g := g) not_false).1, State.gate_setGate_self]

/-- Entry to LOCKING leaves the LOCKING record, or the PARKED one made from it (R31). -/
theorem State.gate_enterLocking (s : State) (g : GateNo) (o : OrderOutcome) :
    let r := { (s.gate g).locking with move := (s.gate g).locking.move.setPending o }
    (s.enterLocking g o).gate g = r ∨ (s.enterLocking g o).gate g = { r.parked with move := .empty } := by
  unfold State.enterLocking
  simp only
  split
  · refine .inr ?_
    rw [State.gate_park, State.modGate, State.gate_setGate_self]
  · exact .inl (State.gate_setGate_self _ _ _)

/-! ### Laws of gate records -/

/-- Both lock-pin commands of `r` are those of `r'`. -/
def SamePins (r r' : GateRec) : Prop := r.endL.pinCmd = r'.endL.pinCmd ∧ r.endR.pinCmd = r'.endR.pinCmd

/-- `P` is a law of gate records that the operations on a gate keep, `O` what holds of a gate that is neither at rest nor
in LOCKING and does not look at anything but the lock-pin commands. -/
structure GateLaw (P O : GateRec → Prop) : Prop where
  tripped : ∀ (r : GateRec) c f e t b, P ((r.tripped c f e t).afterTrip b)
  locking : ∀ (r : GateRec) o, P { r.locking with move := r.locking.move.setPending o }
  parked : ∀ r : GateRec, P r → r.state = .locking → P { r.parked with move := .empty }
  out : ∀ r : GateRec, P r → r.state.moving = true → r.state ≠ .locking → O r
  pins : ∀ r r' : GateRec, SamePins r r' → O r → O r'
  settling : ∀ r : GateRec, O r → P r.settling
  held : ∀ (r : GateRec) n, O r → P (r.heldAt n)
  valves : ∀ r : GateRec, O r → r.state = .travel → P r.setValves
  releasing : ∀ (r : GateRec) k u o t b, P (r.releasing k u o t b)
  building : ∀ r : GateRec, O r → P r.building
  still : ∀ r r' : GateRec, P r → r'.state = r.state → r'.endL.valve = r.endL.valve →
    r'.endR.valve = r.endR.valve → SamePins r r' → (r.state.moving = true ∨ r'.move = r.move) → P r'

/-- Every gate's record obeys `P`. -/
def GatesObey (P : GateRec → Prop) (s : State) : Prop := ∀ g : GateNo, P (s.gate g)

section

variable {P O : GateRec → Prop} {s t : State} {g : GateNo}

/-- An operation that touches gate `g` alone keeps the law if it leaves a lawful record there. -/
theorem GatesObey.touch (ok : GatesObey P s) (h : Touch (Eq g) s t) (hg : P (t.gate g)) : GatesObey P t := by
  intro x
  by_cases e : g = x
  · exact e ▸ hg
  · rw [(h.others e).1]
    exact ok x

/-- An operation that touches no gate keeps the law. -/
theorem GatesObey.away (ok : GatesObey P s) (h : Touch (fun _ => False) s t) : GatesObey P t := by
  intro x
  rw [(h.others not_false).1]
  exact ok x

theorem GatesObey.tripGate (law : GateLaw P O) (ok : GatesObey P s) (g : GateNo) (c : TripCause) (f : BitVec 7)
    (e : Concern) : GatesObey P (s.tripGate g c f e) := by
  obtain ⟨b, h⟩ := s.gate_tripGate g c f e
  exact ok.touch (s.touch_tripGate g c f e) (h ▸ law.tripped _ _ _ _ _ _)

theorem GatesObey.park (law : GateLaw P O) (ok : GatesObey P s) (g : GateNo) (h : (s.gate g).state = .locking) :
    GatesObey P (s.park g) :=
  ok.touch (s.touch_park g) (s.gate_park g ▸ law.parked _ (ok g) h)

/-- Entry to LOCKING leaves a lawful record, whatever the record was. -/
theorem GateLaw.enterLocking (law : GateLaw P O) (s : State) (g : GateNo) (o : OrderOutcome) :
    P ((s.enterLocking g o).gate g) := by
  rcases s.gate_enterLocking g o with h | h
  · exact h ▸ law.locking _ _
  · exact h ▸ law.parked _ (law.locking _ _) rfl

theorem GatesObey.enterLocking (law : GateLaw P O) (ok : GatesObey P s) (g : GateNo) (o : OrderOutcome) :
    GatesObey P (s.enterLocking g o) :=
  ok.touch (s.touch_enterLocking g o) (law.enterLocking s g o)

theorem GatesObey.startMove (law : GateLaw P O) (ok : GatesObey P s) (g : GateNo) (k : SlotNo) (u : UnitNo) (o : Order)
    (x : Option Int) (b : Bool) : GatesObey P (s.startMove g k u o x b) := by
  refine ok.touch (s.touch_startMove g k u o x b) ?_
  have h := law.releasing (s.gate g) k u o x b
  unfold State.startMove
  simp only
  split
  · unfold State.modGate
    rw [State.gate_setGate_self, State.gate_setGate_self]
    exact law.building _ (law.out _ h rfl (by simp [GateRec.releasing]))
  · unfold State.modGate
    rw [State.gate_setGate_self]
    exact h

end

end Sys2Proof.Machine
end

