-- ==== Sys2Proof/Laws/GatesTravel.lean ====
section
/-! SUPPORT. The laws of gate records through TRAVEL: pops, reach, entry, changes of target, samples, feedback, timers and
stops (chapters 2, 7 and 8). -/

namespace Sys2Proof.Machine

open Sys2Proof.Safety

/-! ### Record operations that leave the state and the lock-pin commands -/

/-- `r'` has the state and the lock-pin commands of `r`. -/
def Onward (r r' : GateRec) : Prop := r'.state = r.state ∧ SamePins r r'

theorem Onward.refl (r : GateRec) : Onward r r := ⟨rfl, rfl, rfl⟩

theorem Onward.trans {a b c : GateRec} (h : Onward a b) (k : Onward b c) : Onward a c :=
  ⟨k.1.trans h.1, h.2.1.trans k.2.1, h.2.2.trans k.2.2⟩

theorem GateRec.onward_changeTarget (r : GateRec) (rule : EnvRule) (t : Int) : Onward r (r.changeTarget rule t) := by
  unfold GateRec.changeTarget
  simp only
  split
  · exact ⟨rfl, rfl, rfl⟩
  · exact ⟨rfl, rfl, rfl⟩

theorem GateRec.onward_checkEnvelope (r : GateRec) (c : Int) : Onward r (r.checkEnvelope c) := by
  unfold GateRec.checkEnvelope
  split
  · exact r.onward_changeTarget _ _
  · exact Onward.refl r

theorem GateRec.onward_takeTarget (r : GateRec) (t : Int) : Onward r (r.takeTarget t) := ⟨rfl, rfl, rfl⟩

theorem GateRec.onward_takeLevel (r : GateRec) : Onward r r.takeLevel := by
  unfold GateRec.takeLevel
  split
  · exact ⟨rfl, rfl, rfl⟩
  · exact Onward.refl r

theorem GateRec.onward_takePoint (r : GateRec) (p : Point) (c : Int) : Onward r (r.takePoint p c) := by
  have h := (r.onward_takeTarget p.target).trans ((r.takeTarget p.target).onward_checkEnvelope c)
  exact ⟨h.1, h.2⟩

theorem State.onward_modGate (s : State) (g : GateNo) (f : GateRec → GateRec) (h : Onward (s.gate g) (f (s.gate g))) :
    Onward (s.gate g) ((s.modGate g f).gate g) := by
  unfold State.modGate
  rw [State.gate_setGate_self]
  exact h

/-- A pop leaves the state and the lock-pin commands of its gate (R153). -/
theorem State.onward_pop (s : State) (g : GateNo) : Onward (s.gate g) ((s.pop g).gate g) := by
  unfold State.pop
  simp only
  split
  · exact Onward.refl _
  · unfold State.modGate
    rw [State.gate_setGate_self]
    split
    · split
      · exact GateRec.onward_takePoint _ _ _
      · exact GateRec.onward_takePoint _ _ _
    · split
      · exact GateRec.onward_takePoint _ _ _
      · exact GateRec.onward_takePoint _ _ _

section

variable {P O : GateRec → Prop} {s t : State} {g : GateNo}

/-- The record obeys the law, or is in TRAVEL with its valves still to be set. -/
def Midway (P O : GateRec → Prop) (r : GateRec) : Prop := P r ∨ (r.state = .travel ∧ O r)

theorem GateLaw.onward (law : GateLaw P O) {r r' : GateRec} (h : Onward r r') (o : O r) : O r' := law.pins _ _ h.2 o

theorem GateLaw.enterHeld (law : GateLaw P O) (s : State) (g : GateNo) (o : O (s.gate g)) :
    P ((s.enterHeld g).gate g) := by
  have : (s.enterHeld g).gate g = (s.gate g).heldAt (s.queue g).holdTime := State.gate_setGate_self _ _ _
  exact this ▸ law.held _ _ o

theorem GateLaw.settle (law : GateLaw P O) (s : State) (g : GateNo) (o : O (s.gate g)) :
    P ((s.modGate g GateRec.settling).gate g) := by
  have : (s.modGate g GateRec.settling).gate g = (s.gate g).settling := State.gate_setGate_self _ _ _
  exact this ▸ law.settling _ o

/-- The reach of a STREAM gate in TRAVEL (R156). -/
theorem GateLaw.streamReach (law : GateLaw P O) (n : Nat) (g : GateNo) (s : State) (st : (s.gate g).state = .travel)
    (o : O (s.gate g)) : Midway P O ((State.streamReach n g s).gate g) := by
  induction n generalizing s with
  | zero => exact .inr ⟨st, o⟩
  | succ n ih =>
    unfold State.streamReach
    simp only
    split
    · exact .inr ⟨st, o⟩
    · split
      · exact .inl (law.enterLocking _ _ _)
      · split
        · exact .inl (law.settle _ _ o)
        · split
          · exact .inl (law.enterHeld _ _ o)
          · have h := s.onward_pop g
            exact ih _ (h.1.trans st) (law.onward h o)

/-- The reach test in TRAVEL (R24, R156). -/
theorem GateLaw.reachTest (law : GateLaw P O) (s : State) (g : GateNo) (st : (s.gate g).state = .travel)
    (o : O (s.gate g)) : Midway P O ((s.reachTest g).gate g) := by
  unfold State.reachTest
  simp only
  split
  · exact law.streamReach _ g s st o
  · split
    · exact .inl (law.settle _ _ o)
    · exact .inr ⟨st, o⟩

/-- The setting of the valves makes a record lawful that is midway (R25). -/
theorem GateLaw.setValves (law : GateLaw P O) (s : State) (g : GateNo) (h : Midway P O (s.gate g)) :
    P ((s.setValves g).gate g) := by
  unfold State.setValves
  split
  · next st =>
    have o : O (s.gate g) := h.elim (fun p => law.out _ p (by rw [st]; rfl) (by rw [st]; simp)) fun h => h.2
    unfold State.modGate
    rw [State.gate_setGate_self]
    exact law.valves _ o st
  · next st => exact h.elim id fun h => absurd h.1 st

theorem GateLaw.travelEntry (law : GateLaw P O) (s : State) (g : GateNo) (st : (s.gate g).state = .travel)
    (o : O (s.gate g)) : P ((s.travelEntry g).gate g) := by
  unfold State.travelEntry
  simp only
  have h := s.onward_modGate g (fun r => r.checkEnvelope (s.ceiling g)) ((s.gate g).onward_checkEnvelope _)
  split
  · obtain ⟨b, h⟩ := State.gate_tripGate (s.modGate g fun r => r.checkEnvelope (s.ceiling g)) g _ _ _
    exact h ▸ law.tripped _ _ _ _ _ _
  · exact law.setValves _ _ (law.reachTest _ _ (h.1.trans st) (law.onward h o))

/-- Entry to TRAVEL from BUILDING or HELD leaves a lawful record (R21, R155). -/
theorem GateLaw.enterTravel (law : GateLaw P O) (s : State) (g : GateNo) (o : O (s.gate g)) :
    P ((s.enterTravel g).gate g) := by
  unfold State.enterTravel
  simp only
  generalize ht : (s.modGate g fun r => { r with state := .travel, phase := none, move := { r.move with hold := none } }) = t
  have hg : t.gate g = { s.gate g with state := .travel, phase := none, move := { (s.gate g).move with hold := none } } := by
    rw [← ht]
    exact State.gate_setGate_self _ _ _
  have st : (t.gate g).state = .travel := by rw [hg]
  have o' : O (t.gate g) := by
    rw [hg]
    exact law.pins (s.gate g) _ ⟨rfl, rfl⟩ o
  split
  · split
    · exact law.enterLocking _ _ _
    · split
      · exact law.travelEntry _ _ st o'
      · split
        · exact law.enterHeld _ _ o'
        · have h := t.onward_pop g
          exact law.travelEntry _ _ (h.1.trans st) (law.onward h o')
  · have h := t.onward_modGate g GateRec.takeLevel (GateRec.onward_takeLevel _)
    exact law.travelEntry _ _ (h.1.trans st) (law.onward h o')
  · have h := t.onward_modGate g (fun r => r.takeTarget (r.move.orderTarget.getD 0)) (GateRec.onward_takeTarget _ _)
    exact law.travelEntry _ _ (h.1.trans st) (law.onward h o')

end

end Sys2Proof.Machine
end

