-- ==== Sys2Proof/Laws/GatesEvents.lean ====
section
/-! SUPPORT. A law of gate records is kept by every event operation of a gate, by changes of target, line-up, unit faults,
stops, cuts and the start of warm reset. -/

namespace Sys2Proof.Machine

open Sys2Proof.Safety

variable {P O : GateRec → Prop} {s : State}

/-- An update of the record of a gate that leaves state, valves, lock-pin commands and, at rest, the move (R16). -/
theorem GatesObey.still (law : GateLaw P O) (ok : GatesObey P s) (g : GateNo) (f : GateRec → GateRec)
    (st : (f (s.gate g)).state = (s.gate g).state) (l : (f (s.gate g)).endL.valve = (s.gate g).endL.valve)
    (r : (f (s.gate g)).endR.valve = (s.gate g).endR.valve) (pins : SamePins (s.gate g) (f (s.gate g)))
    (mv : (s.gate g).state.moving = true ∨ (f (s.gate g)).move = (s.gate g).move) : GatesObey P (s.modGate g f) := by
  refine ok.touch (State.touch_modGate (m := Eq g) s rfl f) ?_
  unfold State.modGate
  rw [State.gate_setGate_self]
  exact law.still _ _ (ok g) st l r pins mv

/-- An update of one end that leaves its valve and its lock-pin command. -/
theorem GatesObey.stillEnd (law : GateLaw P O) (ok : GatesObey P s) (g : GateNo) (e : HoistEnd) (f : EndRec → EndRec)
    (v : (f ((s.gate g).hoist e)).valve = ((s.gate g).hoist e).valve)
    (p : (f ((s.gate g).hoist e)).pinCmd = ((s.gate g).hoist e).pinCmd) :
    GatesObey P (s.modGate g fun r => r.modEnd e f) := by
  cases e with
  | l => exact ok.still law g _ rfl v rfl ⟨p.symm, rfl⟩ (.inr rfl)
  | r => exact ok.still law g _ rfl rfl v ⟨rfl, p.symm⟩ (.inr rfl)

theorem GatesObey.modMove (law : GateLaw P O) (ok : GatesObey P s) (g : GateNo) (f : Move → Move)
    (h : (s.gate g).state.moving = true) : GatesObey P (s.modMove g f) :=
  ok.still law g _ rfl rfl rfl ⟨rfl, rfl⟩ (.inl h)

theorem GatesObey.encoderFault (law : GateLaw P O) (ok : GatesObey P s) (g : GateNo) (e : HoistEnd) :
    GatesObey P (s.encoderFault g e) := by
  unfold State.encoderFault
  split
  · exact ok
  · exact ok.still law g _ rfl rfl rfl ⟨rfl, rfl⟩ (.inr rfl)
  · exact ok.tripGate law g _ _ _

/-- Entry to TRAVEL of a gate in BUILDING or HELD. -/
theorem GatesObey.enterTravel (law : GateLaw P O) (ok : GatesObey P s) (g : GateNo)
    (h : (s.gate g).state = .building ∨ (s.gate g).state = .held) : GatesObey P (s.enterTravel g) := by
  refine ok.touch (s.touch_enterTravel g) (law.enterTravel s g (law.out _ (ok g) ?_ ?_))
  · rcases h with h | h <;> rw [h] <;> rfl
  · rcases h with h | h <;> rw [h] <;> simp

theorem GatesObey.travelOut (law : GateLaw P O) (ok : GatesObey P s) (g : GateNo) (h : (s.gate g).state = .travel) :
    O (s.gate g) := law.out _ (ok g) (by rw [h]; rfl) (by rw [h]; simp)

theorem GatesObey.retarget (law : GateLaw P O) (ok : GatesObey P s) (g : GateNo) (rule : EnvRule) (x : Int)
    (mv : (s.gate g).state.moving = true) : GatesObey P (s.retarget g rule x) := by
  have on := s.onward_modGate g (fun r => r.changeTarget rule x) ((s.gate g).onward_changeTarget _ _)
  have ok' : GatesObey P (s.modGate g fun r => r.changeTarget rule x) := by
    refine ok.still law g _ ((s.gate g).onward_changeTarget rule x).1 ?_ ?_ ((s.gate g).onward_changeTarget rule x).2 (.inl mv)
    · unfold GateRec.changeTarget
      simp only
      split <;> rfl
    · unfold GateRec.changeTarget
      simp only
      split <;> rfl
  unfold State.retarget
  simp only
  split
  · next h =>
    exact ok'.touch ((State.touch_reachTest _ g).trans (State.touch_setValves _ g))
      (law.setValves _ _ (law.reachTest _ _ h (ok'.travelOut law g h)))
  · next h => exact ok'.modMove law g _ (by rw [h]; rfl)
  · next h =>
    split
    · exact ok'.enterTravel law g (.inr h)
    · exact ok'
  · exact ok'

theorem GatesObey.checkFall (law : GateLaw P O) (ok : GatesObey P s) (g : GateNo) : GatesObey P (s.checkFall g) := by
  unfold State.checkFall
  split
  · next rule x h =>
    refine ok.retarget law g _ _ ?_
    unfold State.fallChange at h
    split at h
    · next e => rw [e]; rfl
    · next e => rw [e]; rfl
    · next e => rw [e]; rfl
    · exact absurd h (by simp)
  · exact ok

theorem GatesObey.linedUp (law : GateLaw P O) (ok : GatesObey P s) (u : UnitNo) (k : SlotNo) (g : GateNo) :
    GatesObey P (s.linedUp u k g) := by
  unfold State.linedUp
  simp only
  have ok' : GatesObey P (s.modUnit u fun p => p.toAssigned g) := ok
  split
  · split
    · refine GatesObey.startMove law ?_ _ _ _ _ _ _
      exact ok'
    · exact ok'.away ((State.touch_complete _ _ _).trans (State.touch_releaseUnit _ _))
  · exact ok'.away (State.touch_releaseUnit _ _)

/-! ### Samples -/

theorem EndRec.watch_outputs (e : EndRec) : e.watch.valve = e.valve ∧ e.watch.pinCmd = e.pinCmd := by
  unfold EndRec.watch
  split
  · split
    · exact ⟨rfl, rfl⟩
    · exact ⟨rfl, rfl⟩
  · exact ⟨rfl, rfl⟩

theorem EndRec.sample_outputs (e : EndRec) (x : Int) (p t : Nat) :
    (e.sample x p t).1.valve = e.valve ∧ (e.sample x p t).1.pinCmd = e.pinCmd := by
  unfold EndRec.sample
  simp only
  split
  · exact ⟨rfl, rfl⟩
  · split
    · exact ⟨rfl, rfl⟩
    · exact ⟨rfl, rfl⟩
  · split
    · split
      · exact ⟨rfl, rfl⟩
      · exact ⟨rfl, rfl⟩
    · exact ⟨rfl, rfl⟩

theorem GateRec.onward_trim (r : GateRec) : Onward r r.trim := by
  unfold GateRec.trim
  split
  · exact Onward.refl r
  · exact Onward.refl r
  · split
    · split
      · exact ⟨rfl, rfl, rfl⟩
      · exact Onward.refl r
    · split
      · exact ⟨rfl, rfl, rfl⟩
      · exact Onward.refl r

theorem GatesObey.travelSample (law : GateLaw P O) (ok : GatesObey P s) (g : GateNo) (e : HoistEnd)
    (st : (s.gate g).state = .travel) : GatesObey P (s.travelSample g e) := by
  have ok' : GatesObey P (s.modGate g fun r => r.modEnd e EndRec.watch) :=
    ok.stillEnd law g e _ (EndRec.watch_outputs _).1 (EndRec.watch_outputs _).2
  have st' : ((s.modGate g fun r => r.modEnd e EndRec.watch).gate g).state = .travel := by
    unfold State.modGate
    rw [State.gate_setGate_self]
    cases e <;> exact st
  unfold State.travelSample
  simp only
  split
  · exact ok'.tripGate law g _ _ _
  · have mid := law.reachTest _ g st' (ok'.travelOut law g st')
    split
    · next h =>
      refine ok'.touch ((State.touch_reachTest _ g).trans (State.touch_modGate _ rfl _)) ?_
      have o := mid.elim (fun p => law.out _ p (by rw [h]; rfl) (by rw [h]; simp)) fun m => m.2
      unfold State.modGate
      rw [State.gate_setGate_self]
      have on := GateRec.onward_trim (((s.modGate g fun r => r.modEnd e EndRec.watch).reachTest g).gate g)
      exact law.valves _ (law.onward on o) (on.1.trans h)
    · next h =>
      exact ok'.touch (State.touch_reachTest _ g) (mid.elim id fun m => absurd m.1 h)

theorem GatesObey.countQuiet (law : GateLaw P O) (ok : GatesObey P s) (g : GateNo)
    (h : (s.gate g).state = .settling) : GatesObey P (s.countQuiet g) := by
  unfold State.countQuiet
  simp only
  split
  · have ok' := ok.modMove law g (fun m => { m with quiet := m.quiet + 1 }) (by rw [h]; rfl)
    split
    · exact ok'.enterLocking law g _
    · exact ok'
  · exact ok.modMove law g _ (by rw [h]; rfl)

theorem GatesObey.afterSample (law : GateLaw P O) (ok : GatesObey P s) (g : GateNo) (e : HoistEnd) (r : SampleResult) :
    GatesObey P (s.afterSample g e r) := by
  unfold State.afterSample
  split
  · next h =>
    unfold State.buildSample
    simp only
    have ok' : GatesObey P (s.modGate g fun r => r.modEnd e fun x => { x with fresh := true }) :=
      ok.stillEnd law g e _ rfl rfl
    split
    · refine ok'.enterTravel law g (.inl ?_)
      unfold State.modGate
      rw [State.gate_setGate_self]
      cases e <;> exact h
    · exact ok'
  · next h => exact ok.travelSample law g e h
  · next h =>
    unfold State.settlingSample
    simp only
    split
    · exact ok.tripGate law g _ _ _
    · exact ok.countQuiet law g h
  · unfold State.heldSample
    simp only
    split
    · exact ok.tripGate law g _ _ _
    · exact ok
  · exact ok

theorem GatesObey.encoderSample (law : GateLaw P O) (ok : GatesObey P s) (g : GateNo) (ch : Channel) (c p t : Nat) :
    GatesObey P (s.encoderSample g ch c p t) := by
  unfold State.encoderSample
  simp only
  split
  · exact ok
  · have h := EndRec.sample_outputs ((s.gate g).hoist ((s.gate g).params.swap.endOf ch))
      ((s.gate g).params.opening ((s.gate g).params.swap.endOf ch) c) p t
    split
    · exact (ok.stillEnd law g _ _ h.1 h.2).encoderFault law g _
    · exact (ok.stillEnd law g _ _ h.1 h.2).afterSample law g _ _

theorem GatesObey.encoderSilence (law : GateLaw P O) (ok : GatesObey P s) (g : GateNo) (e : HoistEnd) :
    GatesObey P (s.encoderSilence g e) := by
  unfold State.encoderSilence
  simp only
  split
  · exact ok
  · split
    · exact ok.stillEnd law g e _ rfl rfl
    · exact (ok.stillEnd law g e _ rfl rfl).encoderFault law g e

end Sys2Proof.Machine
end

