-- ==== Sys2Proof/Laws/GatesStops.lean ====
section
/-! SUPPORT. A law of gate records is kept by lock-pin feedback, timer expiries, stops, cuts, unit faults, the start of
warm reset, the in-flight checks and the end of an event. -/

namespace Sys2Proof.Machine

open Sys2Proof.Safety

variable {P O : GateRec → Prop} {s : State}

theorem GatesObey.pinChanged (law : GateLaw P O) (ok : GatesObey P s) (g : GateNo) (e : HoistEnd) :
    GatesObey P (s.pinChanged g e) := by
  unfold State.pinChanged
  simp only
  split
  · next h =>
    split
    · refine ok.touch (State.touch_modGate (m := Eq g) s rfl _) ?_
      unfold State.modGate
      rw [State.gate_setGate_self]
      exact law.building _ (law.out _ (ok g) (by rw [h]; rfl) (by rw [h]; simp))
    · exact ok
  · split
    · exact ok
    · exact ok.tripGate law g _ _ _
  · split
    · exact ok
    · exact ok.tripGate law g _ _ _
  · split
    · exact ok
    · exact ok.tripGate law g _ _ _
  · split
    · exact ok
    · exact ok.tripGate law g _ _ _
  · next h =>
    split
    · exact ok.park law g h
    · exact ok
  · split
    · exact ok.still law g _ rfl rfl rfl ⟨rfl, rfl⟩ (.inr rfl)
    · exact ok
  · exact ok

theorem GatesObey.tripIf (law : GateLaw P O) (ok : GatesObey P s) (p : Prop) [Decidable p] (g : GateNo) (c : TripCause)
    (f : BitVec 7) (e : Concern) : GatesObey P (if p then s.tripGate g c f e else s) := by
  split
  · exact ok.tripGate law g c f e
  · exact ok

theorem GatesObey.lockIf (law : GateLaw P O) (ok : GatesObey P s) (p : Prop) [Decidable p] (g : GateNo)
    (o : OrderOutcome) : GatesObey P (if p then s.enterLocking g o else s) := by
  split
  · exact ok.enterLocking law g o
  · exact ok

theorem GatesObey.releaseExpired (law : GateLaw P O) (ok : GatesObey P s) (g : GateNo) :
    GatesObey P (s.releaseExpired g) := ok.tripIf law _ g _ _ _
theorem GatesObey.buildExpired (law : GateLaw P O) (ok : GatesObey P s) (g : GateNo) :
    GatesObey P (s.buildExpired g) := ok.tripIf law _ g _ _ _
theorem GatesObey.stallExpired (law : GateLaw P O) (ok : GatesObey P s) (g : GateNo) (e : HoistEnd) :
    GatesObey P (s.stallExpired g e) := ok.tripIf law _ g _ _ _
theorem GatesObey.settleExpired (law : GateLaw P O) (ok : GatesObey P s) (g : GateNo) :
    GatesObey P (s.settleExpired g) := ok.lockIf law _ g _
theorem GatesObey.lockExpired (law : GateLaw P O) (ok : GatesObey P s) (g : GateNo) :
    GatesObey P (s.lockExpired g) := ok.tripIf law _ g _ _ _
theorem GatesObey.holdExpired (law : GateLaw P O) (ok : GatesObey P s) (g : GateNo) :
    GatesObey P (s.holdExpired g) := ok.lockIf law _ g _
theorem GatesObey.losePower (law : GateLaw P O) (ok : GatesObey P s) (g : GateNo) :
    GatesObey P (s.losePower g) := ok.tripIf law _ g _ _ _

theorem GatesObey.tripLockExpired (law : GateLaw P O) (ok : GatesObey P s) (g : GateNo) :
    GatesObey P (s.tripLockExpired g) := by
  unfold State.tripLockExpired
  split
  · exact ok.still law g _ rfl rfl rfl ⟨rfl, rfl⟩ (.inr rfl)
  · exact ok

theorem GatesObey.faultAsserted (law : GateLaw P O) (ok : GatesObey P s) (u : UnitNo) :
    GatesObey P (s.faultAsserted u) := by
  unfold State.faultAsserted
  split
  · unfold State.assignedFault
    simp only
    have ok' : GatesObey P (s.takeOut u .fault) := ok.away (State.touch_takeOut _ _ _)
    split
    · exact ok'.losePower law _
    · exact ok'
  · exact ok.away (State.touch_unitFault _ _)

theorem GatesObey.stopMove (law : GateLaw P O) (ok : GatesObey P s) (g : GateNo) : GatesObey P (s.stopMove g) := by
  unfold State.stopMove
  split
  · exact ok.enterLocking law g _
  · exact ok.enterLocking law g _
  · exact ok.enterLocking law g _
  · exact ok.enterLocking law g _
  · exact ok.enterLocking law g _
  · next h => exact ok.modMove law g _ (by rw [h]; rfl)
  · exact ok

theorem GatesObey.cutStream (law : GateLaw P O) (ok : GatesObey P s) (g : GateNo) : GatesObey P (s.cutStream g) := by
  unfold State.cutStream
  split
  · split
    · next h => exact ok.modMove law g _ (by rw [h]; rfl)
    · next h => exact ok.modMove law g _ (by rw [h]; rfl)
    · next h => exact ok.modMove law g _ (by rw [h]; rfl)
    · exact ok.enterLocking law g _
    · exact ok
  · exact ok

theorem GatesObey.resetMove (law : GateLaw P O) (ok : GatesObey P s) (g : GateNo) : GatesObey P (s.resetMove g) := by
  unfold State.resetMove
  split
  · next h => exact (ok.modMove law g _ (by rw [h]; rfl)).enterLocking law g _
  · next h => exact (ok.modMove law g _ (by rw [h]; rfl)).enterLocking law g _
  · next h => exact (ok.modMove law g _ (by rw [h]; rfl)).enterLocking law g _
  · next h => exact (ok.modMove law g _ (by rw [h]; rfl)).enterLocking law g _
  · next h => exact (ok.modMove law g _ (by rw [h]; rfl)).enterLocking law g _
  · next h => exact ok.modMove law g _ (by rw [h]; rfl)
  · exact ok

theorem GatesObey.foldl {α : Type} {f : State → α → State} (h : ∀ s x, GatesObey P s → GatesObey P (f s x))
    (l : List α) (ok : GatesObey P s) : GatesObey P (l.foldl f s) := by
  induction l generalizing s with
  | nil => exact ok
  | cons x l ih => exact ih (h s x ok)

/-! ### Mode control and the end of an event -/

theorem GatesObey.changeMode (ok : GatesObey P s) (m : DeviceMode) (f : Option Flavour) (c : ModeCause) :
    GatesObey P (s.changeMode m f c) := ok

theorem GatesObey.resetEndTest (ok : GatesObey P s) : GatesObey P s.resetEndTest := by
  unfold State.resetEndTest
  split
  · exact ok
  · exact ok

theorem GatesObey.takeReport (ok : GatesObey P s) : GatesObey P s.takeReport := by
  unfold State.takeReport
  simp only
  split
  · split
    · exact ok
    · exact GatesObey.resetEndTest (s := s.markReport false) ok
    · exact ok
  · exact ok

/-- The end of an event touches no gate (R78, R189). -/
theorem GatesObey.finish (ok : GatesObey P s) : GatesObey P s.finish := ok.takeReport.away (State.touch_takeRound _)

theorem GatesObey.beginHold (law : GateLaw P O) (ok : GatesObey P s) : GatesObey P s.beginHold := by
  unfold State.beginHold
  simp only
  have ok' : GatesObey P (s.changeMode .draining (some .hold) .request) := ok
  refine GatesObey.away ?_ (State.touch_noteRunning _)
  exact GatesObey.foldl (fun _ g ok => ok.cutStream law g) _ (ok'.away (Touch.foldl State.touch_ungrant _ _))

theorem GatesObey.stopItem (law : GateLaw P O) (ok : GatesObey P s) (i : StopItem) : GatesObey P (s.stopItem i) := by
  unfold State.stopItem
  split
  · exact ok.stopMove law _
  · split
    · exact ok.away (State.touch_completeGranted _ _ _ _ _ _)
    · exact ok
  · exact ok.away (State.touch_stopRunner _)

theorem GatesObey.giveStops (law : GateLaw P O) (ok : GatesObey P s) : GatesObey P s.giveStops := by
  unfold State.giveStops
  simp only
  refine GatesObey.away ?_ (State.touch_noteRunning _)
  refine GatesObey.foldl (fun _ i ok => ok.stopItem law i) _ ?_
  split
  · exact ok
  · exact ok

theorem GatesObey.beginStop (law : GateLaw P O) (ok : GatesObey P s) : GatesObey P s.beginStop :=
  GatesObey.giveStops (s := s.changeMode .draining (some .stop) .request) law ok

/-- The start of warm reset at the blocks (R190, step 4). -/
theorem GatesObey.resetBlocks (law : GateLaw P O) (ok : GatesObey P s) : GatesObey P s.resetBlocks := by
  have ok' : GatesObey P (s.setLock none) := ok
  have slots : GatesObey P (allSlots.foldl State.resetSlot (s.setLock none)) :=
    ok'.away (State.touch_resetSlots _ _ rfl)
  have moves : GatesObey P (allGates.foldl State.resetMove (allSlots.foldl State.resetSlot (s.setLock none))) :=
    GatesObey.foldl (fun _ g ok => ok.resetMove law g) allGates slots
  unfold State.resetBlocks
  generalize allGates.foldl State.resetMove (allSlots.foldl State.resetSlot (s.setLock none)) = t at moves ⊢
  exact moves

/-- The hand-over to the envelope unit with its in-flight checks (R131, R137). -/
theorem GatesObey.handOver (law : GateLaw P O) (ok : GatesObey P s) (c : HeadChange) : GatesObey P (s.handOver c) := by
  unfold State.handOver
  simp only
  refine GatesObey.takeReport (GatesObey.foldl (fun _ g ok => ok.checkFall law g) _ ?_)
  split
  · exact ok
  · exact ok

/-- An arrival at the tide monitor (R114). -/
theorem GatesObey.afterTide (law : GateLaw P O) (ok : GatesObey P s) (res : Tide × List TideEvent × HeadChange) :
    GatesObey P (s.afterTide res) := by
  have ok' : GatesObey P (s.setTide res.1) := ok
  exact GatesObey.foldl (fun _ e ok => ok.away ((Touch.notify _ _).trans (State.touch_matchEvent _ e))) _
    (ok'.handOver law _)

/-! ### The two laws of the spec that these lemmas are for -/

/-- The items of a move are clear at rest (R16). -/
theorem restingLaw : GateLaw (fun r => r.state.moving = false → r.move = Move.empty) fun _ => True where
  tripped _ _ _ _ _ _ _ := rfl
  locking _ _ h := by simp [GateRec.locking, GateState.moving] at h
  parked _ _ _ _ := rfl
  out _ _ _ _ := trivial
  pins _ _ _ _ := trivial
  settling _ _ h := by simp [GateRec.settling, GateState.moving] at h
  held _ _ _ h := by simp [GateRec.heldAt, GateState.moving] at h
  valves r _ st h := by
    have : r.setValves.state = r.state := by
      unfold GateRec.setValves GateRec.followTrim
      simp only
      split <;> rfl
    rw [this, st] at h
    simp [GateState.moving] at h
  releasing _ _ _ _ _ _ h := by simp [GateRec.releasing, GateState.moving] at h
  building _ _ h := by simp [GateRec.building, GateState.moving] at h
  still r r' ok st _ _ _ mv h := by
    rw [st] at h
    rcases mv with m | m
    · rw [h] at m
      exact absurd m (by simp)
    · exact m.trans (ok h)

/-- A record drives the outputs of its state, `Out` what its lock-pin commands are outside rest and LOCKING. -/
def PinsOut (r : GateRec) : Prop := r.endL.pinCmd = .withdraw ∧ r.endR.pinCmd = .withdraw

/-- The outputs of chapter 2's table by ends. -/
theorem gateOutputs_ends (r : GateRec) :
    gateOutputs r ↔ match r.state with
      | .absent | .parked | .locking | .tripped =>
        (r.endL.valve = .closed ∧ r.endL.pinCmd = .engage) ∧ r.endR.valve = .closed ∧ r.endR.pinCmd = .engage
      | .releasing | .held | .settling =>
        (r.endL.valve = .closed ∧ r.endL.pinCmd = .withdraw) ∧ r.endR.valve = .closed ∧ r.endR.pinCmd = .withdraw
      | .building =>
        (r.endL.valve = .build ∧ r.endL.pinCmd = .withdraw) ∧ r.endR.valve = .build ∧ r.endR.pinCmd = .withdraw
      | .travel =>
        (r.endL.valve ≠ .build ∧ r.endL.pinCmd = .withdraw) ∧ r.endR.valve ≠ .build ∧ r.endR.pinCmd = .withdraw := by
  have all : ∀ p : HoistEnd → Prop, (∀ e, p e) ↔ p .l ∧ p .r :=
    fun p => ⟨fun h => ⟨h .l, h .r⟩, fun h e => by cases e; exacts [h.1, h.2]⟩
  unfold gateOutputs
  cases r.state <;> exact all _

theorem GateRec.setValves_outputs (r : GateRec) :
    r.setValves.state = r.state ∧ SamePins r r.setValves ∧ r.setValves.endL.valve ≠ .build ∧
      r.setValves.endR.valve ≠ .build := by
  have drive : ∀ (e : EndRec) (v : Valve), v ≠ .build → (e.drive v).valve ≠ .build ∧ (e.drive v).pinCmd = e.pinCmd := by
    intro e v h
    unfold EndRec.drive
    split
    · exact ⟨h, rfl⟩
    · exact ⟨h, rfl⟩
  have one : ∀ (r : GateRec) (e : HoistEnd),
      (r.driveEnd e).valve ≠ .build ∧ (r.driveEnd e).pinCmd = (r.hoist e).pinCmd := by
    intro r e
    unfold GateRec.driveEnd
    split
    · refine drive _ _ ?_
      split <;> simp
    · exact ⟨by simp [EndRec.closed], rfl⟩
  have trim : r.followTrim.state = r.state ∧ r.followTrim.endL = r.endL ∧ r.followTrim.endR = r.endR := by
    unfold GateRec.followTrim
    split
    · exact ⟨rfl, rfl, rfl⟩
    · exact ⟨rfl, rfl, rfl⟩
  refine ⟨trim.1, ⟨?_, ?_⟩, (one r.followTrim .l).1, (one r.followTrim .r).1⟩
  · have h := (one r.followTrim .l).2
    unfold GateRec.hoist at h
    rw [trim.2.1] at h
    exact h.symm
  · have h := (one r.followTrim .r).2
    unfold GateRec.hoist at h
    rw [trim.2.2] at h
    exact h.symm

/-- Every gate drives the outputs of its state (R2, R16). -/
theorem outputsLaw : GateLaw gateOutputs PinsOut where
  tripped r c f e t b := (gateOutputs_ends _).2 ⟨⟨rfl, rfl⟩, rfl, rfl⟩
  locking r o := (gateOutputs_ends _).2 ⟨⟨rfl, rfl⟩, rfl, rfl⟩
  parked r ok st := by
    have h := (gateOutputs_ends r).1 ok
    rw [st] at h
    exact (gateOutputs_ends _).2 h
  out r ok mv ne := by
    have h := (gateOutputs_ends r).1 ok
    cases st : r.state <;> rw [st] at h mv ne
    · exact absurd mv (by simp [GateState.moving])
    · exact absurd mv (by simp [GateState.moving])
    · exact ⟨h.1.2, h.2.2⟩
    · exact ⟨h.1.2, h.2.2⟩
    · exact ⟨h.1.2, h.2.2⟩
    · exact ⟨h.1.2, h.2.2⟩
    · exact ⟨h.1.2, h.2.2⟩
    · exact absurd rfl ne
    · exact absurd mv (by simp [GateState.moving])
  pins r r' same o := ⟨same.1.symm.trans o.1, same.2.symm.trans o.2⟩
  settling r o := (gateOutputs_ends _).2 ⟨⟨rfl, o.1⟩, rfl, o.2⟩
  held r n o := (gateOutputs_ends _).2 ⟨⟨rfl, o.1⟩, rfl, o.2⟩
  valves r o st := by
    obtain ⟨s, p, l, x⟩ := r.setValves_outputs
    refine (gateOutputs_ends _).2 ?_
    rw [s, st]
    exact ⟨⟨l, p.1.symm.trans o.1⟩, x, p.2.symm.trans o.2⟩
  releasing r k u o t b := (gateOutputs_ends _).2 ⟨⟨rfl, rfl⟩, rfl, rfl⟩
  building r o := (gateOutputs_ends _).2 ⟨⟨rfl, o.1⟩, rfl, o.2⟩
  still r r' ok st l x p mv := by
    have h := (gateOutputs_ends r).1 ok
    refine (gateOutputs_ends r').2 ?_
    rw [st, l, x, ← p.1, ← p.2]
    exact h

end Sys2Proof.Machine
end

