-- ==== Sys2Proof/WellFormed.lean ====
section
/-! DEFINITION. Which operands a command can carry: what the bytes of a request body (R206) or a field line (R2, R110)
can hold. A well-formed request may still be refused by its owning block. -/

namespace Sys2Proof

/-- A one-byte field. -/
def wfU8 (x : Nat) : Bool := x < 256

/-- A two-byte unsigned field. -/
def wfU16 (x : Nat) : Bool := x < 65536

/-- A three-byte unsigned field (encoder zero). -/
def wfU24 (x : Nat) : Bool := x < 16777216

/-- A number of millimetres: two bytes, signed (R206). -/
def wfMm (x : Int) : Bool := -32768 ≤ x && x ≤ 32767

/-- Fields 3 to 21 of CONFIGURE_GATE fit their encodings. -/
def RawGate.wf (p : RawGate) : Bool :=
  wfMm p.openingMax && wfU8 p.swap && wfU8 p.lDir && wfU24 p.lZero && wfU16 p.lScale && wfU8 p.rDir && wfU24 p.rZero
    && wfU16 p.rScale && wfMm p.deadband && wfMm p.skewTrim && wfMm p.skewTrip && wfMm p.approach
    && wfU8 p.releaseTime && wfU8 p.buildSteps && wfU16 p.buildPressure && wfU8 p.lockTime && wfU8 p.quietCount
    && wfU8 p.permitted && wfU8 p.overrideAllowed

/-- The fields of CONFIGURE_TIDE fit their encodings. -/
def RawTide.wf (f : RawTide) : Bool :=
  wfMm f.upLow && wfMm f.upHigh && wfMm f.downLow && wfMm f.downHigh && wfMm f.turnBand && wfU8 f.turnConfirm
    && wfMm f.surgeRate

/-- The fields of CONFIGURE_THRESHOLD fit their encodings. -/
def RawThreshold.wf (f : RawThreshold) : Bool :=
  wfU8 f.index && wfU8 f.signal && wfMm f.level && wfMm f.hysteresis && wfU8 f.enabled

/-- The fields of CONFIGURE_QUEUE fit their encodings. -/
def RawQueue.wf (f : RawQueue) : Bool :=
  wfU8 f.gate && wfU8 f.base && wfU8 f.size && wfU8 f.limit && wfU8 f.limitDir && wfU16 f.holdTime

/-- The order fields of POST_ORDER fit their encodings. -/
def RawOrder.wf (f : RawOrder) : Bool :=
  wfU8 f.kind && wfU8 f.gate && wfU8 f.targetPresence && wfMm f.target && wfU8 f.speed && wfU8 f.priority
    && wfU8 f.rule && wfU8 f.triggerPresence && wfU8 f.eventKind && wfU8 f.thrIndex && wfU8 f.rep && wfU16 f.tag

/-- A point fits its five bytes. -/
def RawPoint.wf (p : RawPoint) : Bool := wfMm p.target && wfU16 p.stepTime && wfU8 p.tag

/-- The fields of SET_LOAD_WINDOW fit their encodings. -/
def RawWindow.wf (f : RawWindow) : Bool :=
  wfU8 f.firstStep && wfU8 f.lastStep && wfU8 f.firstGate && wfU8 f.lastGate && wfU8 f.advance

/-- The fields of DEFINE_SEQUENCE fit their encodings. -/
def RawSequence.wf (f : RawSequence) : Bool :=
  wfU8 f.firstStep && wfU8 f.lastStep && wfU8 f.repetitions && wfU8 f.windowFirst && wfU8 f.windowLast
    && wfU8 f.priority && wfU8 f.speed && wfU8 f.rule

/-- The operands are ones that the command's frame or field line can carry. A push holds at most 49 points and a write
at most 124 values, the most a 250-byte body has room for (R196, R208). -/
def Instr.wf : Instr → Bool
  | .resetLineAsserted => true
  | .coldReset _ => true
  | .weirClockTick => true
  | .receivedByte _ _ => true
  | .gapTimerExpiry => true
  | .frameFinished => true
  | .status _ => true
  | .setClock _ _ => true
  | .run _ => true
  | .hold _ => true
  | .stopAll _ => true
  | .reset _ => true
  | .setNotices _ flags => flags.length == 10 && flags.all wfU8
  | .configureGatePresent _ gate p => wfU8 gate && p.wf
  | .configureGateAbsent _ gate => wfU8 gate
  | .configureUnit _ unit idleTime => wfU8 unit && wfU16 idleTime
  | .configureArbiter _ mode => wfU8 mode
  | .configureTide _ f => f.wf
  | .configureThreshold _ f => f.wf
  | .configureEnvelope _ boundaries cells =>
    boundaries.length == 7 && cells.length == 48 && boundaries.all wfMm && cells.all wfMm
  | .configureQueue _ f => f.wf
  | .postOrder _ slot f => wfU8 slot && f.wf
  | .withdrawOrder _ slot => wfU8 slot
  | .readSlot _ slot => wfU8 slot
  | .unlock _ slot => wfU8 slot
  | .listSlots _ => true
  | .readGate _ gate => wfU8 gate
  | .stopGate _ gate => wfU8 gate
  | .clearTrip _ gate => wfU8 gate
  | .setUnitServiceOut _ unit => wfU8 unit
  | .setUnitServiceIn _ unit => wfU8 unit
  | .readTide _ => true
  | .pushPoints _ gate points => wfU8 gate && points.length ≤ 49 && points.all RawPoint.wf
  | .peekPoints _ gate position count => wfU8 gate && wfU8 position && wfU8 count
  | .flushPoints _ gate => wfU8 gate
  | .readQueue _ gate => wfU8 gate
  | .setLoadWindow _ f => f.wf
  | .writeCells _ values => values.length ≤ 124 && values.all wfU16
  | .setStepDwell _ step dwell => wfU8 step && wfU16 dwell
  | .readCells _ step => wfU8 step
  | .defineSequence _ f => f.wf
  | .startSequence _ => true
  | .stopSequence _ => true
  | .encoderSample _ _ count pressure _ => wfU24 count && pressure ≤ 400
  | .encoderSilenceExpiry _ _ => true
  | .lockPinFeedback _ _ _ => true
  | .releaseTimerExpiry _ => true
  | .buildTimerExpiry _ => true
  | .stallTimerExpiry _ _ => true
  | .settleTimerExpiry _ => true
  | .lockTimerExpiry _ => true
  | .tripLockTimerExpiry _ => true
  | .holdTimerExpiry _ => true
  | .readyChange _ _ => true
  | .faultAssertion _ => true
  | .faultClearing _ => true
  | .linedUpChange _ _ => true
  | .startTimerExpiry _ => true
  | .lineUpTimerExpiry _ => true
  | .idleTimerExpiry _ => true
  | .gaugeSample _ level => wfMm level
  | .gaugeSilenceExpiry _ => true
  | .postingAttempt => true
  | .runnerCollection _ => true
  | .dwellTimerExpiry => true

end Sys2Proof
end

