-- ==== Sys2Proof/Laws/PerInstr.lean ====
section
/-! SUPPORT. A statement made per command: no operand that a request carries in one byte is changed by that byte, where
the command is well-formed (R206). -/

namespace Sys2Proof.Laws

/-- The operands that a command's request body carries in one unsigned byte each. -/
def byteOperands : Instr → List Nat
  | .resetLineAsserted => []
  | .coldReset _ => []
  | .weirClockTick => []
  | .receivedByte _ _ => []
  | .gapTimerExpiry => []
  | .frameFinished => []
  | .status _ => []
  | .setClock _ _ => []
  | .run _ => []
  | .hold _ => []
  | .stopAll _ => []
  | .reset _ => []
  | .setNotices _ flags => flags
  | .configureGatePresent _ gate p => [gate, p.swap, p.lDir, p.rDir, p.releaseTime, p.buildSteps, p.lockTime, p.quietCount, p.permitted,
    p.overrideAllowed]
  | .configureGateAbsent _ gate => [gate]
  | .configureUnit _ unit _ => [unit]
  | .configureArbiter _ mode => [mode]
  | .configureTide _ f => [f.turnConfirm]
  | .configureThreshold _ f => [f.index, f.signal, f.enabled]
  | .configureEnvelope _ _ _ => []
  | .configureQueue _ f => [f.gate, f.base, f.size, f.limit, f.limitDir]
  | .postOrder _ slot f => [slot, f.kind, f.gate, f.targetPresence, f.speed, f.priority, f.rule, f.triggerPresence, f.eventKind,
    f.thrIndex, f.rep]
  | .withdrawOrder _ slot => [slot]
  | .readSlot _ slot => [slot]
  | .unlock _ slot => [slot]
  | .listSlots _ => []
  | .readGate _ gate => [gate]
  | .stopGate _ gate => [gate]
  | .clearTrip _ gate => [gate]
  | .setUnitServiceOut _ unit => [unit]
  | .setUnitServiceIn _ unit => [unit]
  | .readTide _ => []
  | .pushPoints _ gate points => gate :: points.map RawPoint.tag
  | .peekPoints _ gate position count => [gate, position, count]
  | .flushPoints _ gate => [gate]
  | .readQueue _ gate => [gate]
  | .setLoadWindow _ f => [f.firstStep, f.lastStep, f.firstGate, f.lastGate, f.advance]
  | .writeCells _ _ => []
  | .setStepDwell _ step _ => [step]
  | .readCells _ step => [step]
  | .defineSequence _ f => [f.firstStep, f.lastStep, f.repetitions, f.windowFirst, f.windowLast, f.priority, f.speed, f.rule]
  | .startSequence _ => []
  | .stopSequence _ => []
  | .encoderSample _ _ _ _ _ => []
  | .encoderSilenceExpiry _ _ => []
  | .lockPinFeedback _ _ _ => []
  | .releaseTimerExpiry _ => []
  | .buildTimerExpiry _ => []
  | .stallTimerExpiry _ _ => []
  | .settleTimerExpiry _ => []
  | .lockTimerExpiry _ => []
  | .tripLockTimerExpiry _ => []
  | .holdTimerExpiry _ => []
  | .readyChange _ _ => []
  | .faultAssertion _ => []
  | .faultClearing _ => []
  | .linedUpChange _ _ => []
  | .startTimerExpiry _ => []
  | .lineUpTimerExpiry _ => []
  | .idleTimerExpiry _ => []
  | .gaugeSample _ _ => []
  | .gaugeSilenceExpiry _ => []
  | .postingAttempt => []
  | .runnerCollection _ => []
  | .dwellTimerExpiry => []

/-- Every one-byte operand reads back from its byte. -/
def OperandsFit.Statement (i : Instr) : Prop :=
  i.wf = true → ∀ x ∈ byteOperands i, (BitVec.ofNat 8 x).toNat = x

/-- A number below 256 is kept by its byte. -/
theorem byte_keeps {x : Nat} (h : x < 256) : (BitVec.ofNat 8 x).toNat = x := by
  simp only [BitVec.toNat_ofNat]
  exact Nat.mod_eq_of_lt h

/-- No well-formed command carries a one-byte operand of 256 or more. -/
theorem byteOperands_lt (i : Instr) (h : i.wf = true) : ∀ x ∈ byteOperands i, x < 256 := by
  cases i with
  | setNotices n flags =>
    intro x hx
    simp only [Instr.wf, Bool.and_eq_true, List.all_eq_true, wfU8, decide_eq_true_eq] at h
    exact h.2 x hx
  | pushPoints n gate points =>
    intro x hx
    simp only [Instr.wf, RawPoint.wf, Bool.and_eq_true, List.all_eq_true, wfU8, decide_eq_true_eq] at h
    simp only [byteOperands, List.mem_cons, List.mem_map] at hx
    rcases hx with rfl | ⟨p, hp, rfl⟩
    · exact h.1.1
    · exact (h.2 p hp).2
  | _ =>
    simp only [Instr.wf, RawGate.wf, RawTide.wf, RawThreshold.wf, RawQueue.wf, RawOrder.wf, RawWindow.wf,
      RawSequence.wf, wfU8, Bool.and_eq_true, decide_eq_true_eq] at h
    simp only [byteOperands, List.forall_mem_cons, List.not_mem_nil, false_imp_iff, implies_true, and_true]
    try omega

/-- The statement holds of every command. -/
theorem operandsFit (i : Instr) : OperandsFit.Statement i := fun h x hx => byte_keeps (byteOperands_lt i h x hx)

theorem OperandsFit.resetLineAsserted : OperandsFit.Statement .resetLineAsserted := operandsFit _
theorem OperandsFit.coldReset (strap : LinkRate) : OperandsFit.Statement (.coldReset strap) := operandsFit _
theorem OperandsFit.weirClockTick : OperandsFit.Statement .weirClockTick := operandsFit _
theorem OperandsFit.receivedByte (b : Byte) (stopHigh : Bool) : OperandsFit.Statement (.receivedByte b stopHigh) := operandsFit _
theorem OperandsFit.gapTimerExpiry : OperandsFit.Statement .gapTimerExpiry := operandsFit _
theorem OperandsFit.frameFinished : OperandsFit.Statement .frameFinished := operandsFit _
theorem OperandsFit.status (n : Byte) : OperandsFit.Statement (.status n) := operandsFit _
theorem OperandsFit.setClock (n : Byte) (value : Clock) : OperandsFit.Statement (.setClock n value) := operandsFit _
theorem OperandsFit.run (n : Byte) : OperandsFit.Statement (.run n) := operandsFit _
theorem OperandsFit.hold (n : Byte) : OperandsFit.Statement (.hold n) := operandsFit _
theorem OperandsFit.stopAll (n : Byte) : OperandsFit.Statement (.stopAll n) := operandsFit _
theorem OperandsFit.reset (n : Byte) : OperandsFit.Statement (.reset n) := operandsFit _
theorem OperandsFit.setNotices (n : Byte) (flags : List Nat) : OperandsFit.Statement (.setNotices n flags) := operandsFit _
theorem OperandsFit.configureGatePresent (n : Byte) (gate : Nat) (p : RawGate) : OperandsFit.Statement (.configureGatePresent n gate p) := operandsFit _
theorem OperandsFit.configureGateAbsent (n : Byte) (gate : Nat) : OperandsFit.Statement (.configureGateAbsent n gate) := operandsFit _
theorem OperandsFit.configureUnit (n : Byte) (unit idleTime : Nat) : OperandsFit.Statement (.configureUnit n unit idleTime) := operandsFit _
theorem OperandsFit.configureArbiter (n : Byte) (mode : Nat) : OperandsFit.Statement (.configureArbiter n mode) := operandsFit _
theorem OperandsFit.configureTide (n : Byte) (f : RawTide) : OperandsFit.Statement (.configureTide n f) := operandsFit _
theorem OperandsFit.configureThreshold (n : Byte) (f : RawThreshold) : OperandsFit.Statement (.configureThreshold n f) := operandsFit _
theorem OperandsFit.configureEnvelope (n : Byte) (boundaries cells : List Int) : OperandsFit.Statement (.configureEnvelope n boundaries cells) := operandsFit _
theorem OperandsFit.configureQueue (n : Byte) (f : RawQueue) : OperandsFit.Statement (.configureQueue n f) := operandsFit _
theorem OperandsFit.postOrder (n : Byte) (slot : Nat) (f : RawOrder) : OperandsFit.Statement (.postOrder n slot f) := operandsFit _
theorem OperandsFit.withdrawOrder (n : Byte) (slot : Nat) : OperandsFit.Statement (.withdrawOrder n slot) := operandsFit _
theorem OperandsFit.readSlot (n : Byte) (slot : Nat) : OperandsFit.Statement (.readSlot n slot) := operandsFit _
theorem OperandsFit.unlock (n : Byte) (slot : Nat) : OperandsFit.Statement (.unlock n slot) := operandsFit _
theorem OperandsFit.listSlots (n : Byte) : OperandsFit.Statement (.listSlots n) := operandsFit _
theorem OperandsFit.readGate (n : Byte) (gate : Nat) : OperandsFit.Statement (.readGate n gate) := operandsFit _
theorem OperandsFit.stopGate (n : Byte) (gate : Nat) : OperandsFit.Statement (.stopGate n gate) := operandsFit _
theorem OperandsFit.clearTrip (n : Byte) (gate : Nat) : OperandsFit.Statement (.clearTrip n gate) := operandsFit _
theorem OperandsFit.setUnitServiceOut (n : Byte) (unit : Nat) : OperandsFit.Statement (.setUnitServiceOut n unit) := operandsFit _
theorem OperandsFit.setUnitServiceIn (n : Byte) (unit : Nat) : OperandsFit.Statement (.setUnitServiceIn n unit) := operandsFit _
theorem OperandsFit.readTide (n : Byte) : OperandsFit.Statement (.readTide n) := operandsFit _
theorem OperandsFit.pushPoints (n : Byte) (gate : Nat) (points : List RawPoint) : OperandsFit.Statement (.pushPoints n gate points) := operandsFit _
theorem OperandsFit.peekPoints (n : Byte) (gate position count : Nat) : OperandsFit.Statement (.peekPoints n gate position count) := operandsFit _
theorem OperandsFit.flushPoints (n : Byte) (gate : Nat) : OperandsFit.Statement (.flushPoints n gate) := operandsFit _
theorem OperandsFit.readQueue (n : Byte) (gate : Nat) : OperandsFit.Statement (.readQueue n gate) := operandsFit _
theorem OperandsFit.setLoadWindow (n : Byte) (f : RawWindow) : OperandsFit.Statement (.setLoadWindow n f) := operandsFit _
theorem OperandsFit.writeCells (n : Byte) (values : List Nat) : OperandsFit.Statement (.writeCells n values) := operandsFit _
theorem OperandsFit.setStepDwell (n : Byte) (step dwell : Nat) : OperandsFit.Statement (.setStepDwell n step dwell) := operandsFit _
theorem OperandsFit.readCells (n : Byte) (step : Nat) : OperandsFit.Statement (.readCells n step) := operandsFit _
theorem OperandsFit.defineSequence (n : Byte) (f : RawSequence) : OperandsFit.Statement (.defineSequence n f) := operandsFit _
theorem OperandsFit.startSequence (n : Byte) : OperandsFit.Statement (.startSequence n) := operandsFit _
theorem OperandsFit.stopSequence (n : Byte) : OperandsFit.Statement (.stopSequence n) := operandsFit _
theorem OperandsFit.encoderSample (gate : GateNo) (ch : Channel) (count pressure elapsed : Nat) : OperandsFit.Statement (.encoderSample gate ch count pressure elapsed) := operandsFit _
theorem OperandsFit.encoderSilenceExpiry (gate : GateNo) (e : HoistEnd) : OperandsFit.Statement (.encoderSilenceExpiry gate e) := operandsFit _
theorem OperandsFit.lockPinFeedback (gate : GateNo) (ch : Channel) (pos : PinPos) : OperandsFit.Statement (.lockPinFeedback gate ch pos) := operandsFit _
theorem OperandsFit.releaseTimerExpiry (gate : GateNo) : OperandsFit.Statement (.releaseTimerExpiry gate) := operandsFit _
theorem OperandsFit.buildTimerExpiry (gate : GateNo) : OperandsFit.Statement (.buildTimerExpiry gate) := operandsFit _
theorem OperandsFit.stallTimerExpiry (gate : GateNo) (e : HoistEnd) : OperandsFit.Statement (.stallTimerExpiry gate e) := operandsFit _
theorem OperandsFit.settleTimerExpiry (gate : GateNo) : OperandsFit.Statement (.settleTimerExpiry gate) := operandsFit _
theorem OperandsFit.lockTimerExpiry (gate : GateNo) : OperandsFit.Statement (.lockTimerExpiry gate) := operandsFit _
theorem OperandsFit.tripLockTimerExpiry (gate : GateNo) : OperandsFit.Statement (.tripLockTimerExpiry gate) := operandsFit _
theorem OperandsFit.holdTimerExpiry (gate : GateNo) : OperandsFit.Statement (.holdTimerExpiry gate) := operandsFit _
theorem OperandsFit.readyChange (unit : UnitNo) (ready : Bool) : OperandsFit.Statement (.readyChange unit ready) := operandsFit _
theorem OperandsFit.faultAssertion (unit : UnitNo) : OperandsFit.Statement (.faultAssertion unit) := operandsFit _
theorem OperandsFit.faultClearing (unit : UnitNo) : OperandsFit.Statement (.faultClearing unit) := operandsFit _
theorem OperandsFit.linedUpChange (unit : UnitNo) (lined : Bool) : OperandsFit.Statement (.linedUpChange unit lined) := operandsFit _
theorem OperandsFit.startTimerExpiry (unit : UnitNo) : OperandsFit.Statement (.startTimerExpiry unit) := operandsFit _
theorem OperandsFit.lineUpTimerExpiry (unit : UnitNo) : OperandsFit.Statement (.lineUpTimerExpiry unit) := operandsFit _
theorem OperandsFit.idleTimerExpiry (unit : UnitNo) : OperandsFit.Statement (.idleTimerExpiry unit) := operandsFit _
theorem OperandsFit.gaugeSample (gauge : Gauge) (level : Int) : OperandsFit.Statement (.gaugeSample gauge level) := operandsFit _
theorem OperandsFit.gaugeSilenceExpiry (gauge : Gauge) : OperandsFit.Statement (.gaugeSilenceExpiry gauge) := operandsFit _
theorem OperandsFit.postingAttempt : OperandsFit.Statement .postingAttempt := operandsFit _
theorem OperandsFit.runnerCollection (slot : SlotNo) : OperandsFit.Statement (.runnerCollection slot) := operandsFit _
theorem OperandsFit.dwellTimerExpiry : OperandsFit.Statement .dwellTimerExpiry := operandsFit _

end Sys2Proof.Laws
end

