-- ==== Sys2Proof/Laws/Rounds.lean ====
section
/-! SUPPORT. What the end of an event does: a round grants nothing where no slot waits, an abandoned grant hands its
unit back as R87 says, a gate releases its unit and an order completes as the terms of Safety.lean say. -/

namespace Sys2Proof.Machine

open Sys2Proof.Safety

/-- A slot that is not PENDING is not eligible (R79, condition 1). -/
theorem State.eligible_of_noneWaits {s : State} (h : NoneWaits s) (k : SlotNo) : s.eligible k = false := by
  unfold State.eligible
  split
  · rfl
  · simp [h k]

/-- A pass has no winner where no slot waits (R82). -/
theorem State.choice_of_noneWaits {s : State} (h : NoneWaits s) : s.choice = none := by
  have none_eligible : allSlots.filter s.eligible = [] := by simp [State.eligible_of_noneWaits h]
  have no_winner : s.winner = none := by
    unfold State.winner
    simp only [none_eligible]
    split <;> rfl
  unfold State.choice
  rw [no_winner]

/-- A round with no slot waiting changes nothing but its own mark (R76, R79). -/
theorem State.takeRound_of_noneWaits {s : State} (h : NoneWaits s) :
    s.takeRound = if s.marks.roundDue then s.closeRound else s := by
  have passes_same : State.passes 3 s = s := by
    unfold State.passes
    rw [State.choice_of_noneWaits h]
  unfold State.takeRound
  rw [passes_same]

/-- An event that has opened a round ends as it stands where no slot waits for a grant (R78). -/
theorem State.finish_openRound_of_noneWaits {s : State} (h : NoneWaits s) (m : MarksClear s) :
    s.openRound.finish = s := by
  have clear : s.marks = ⟨false, false⟩ := m
  unfold State.finish State.takeReport
  simp only [State.openRound, clear, Bool.false_eq_true, if_false]
  rw [State.takeRound_of_noneWaits (by exact h)]
  simp [State.closeRound, ← clear]

/-- An event that has opened no round and brought about no report ends as it stands (R78, R189). -/
theorem State.finish_of_marksClear {s : State} (m : MarksClear s) : s.finish = s := by
  have clear : s.marks = ⟨false, false⟩ := m
  simp [State.finish, State.takeReport, State.takeRound, clear]

/-- An abandoned grant hands its unit back and opens a round (R87). -/
theorem State.handBack_eq (s : State) (u : UnitNo) : s.handBack u = (abandons s u).openRound := by
  have same : s.units.set u.val (s.unit u) u.isLt = s.units := by simp [State.unit, Vector.get_eq_getElem]
  unfold State.handBack abandons abandonedUnit
  cases h : (s.unit u).state <;>
    simp [State.modUnit, State.setUnit, State.setStartQueue, State.openRound, PowerUnit.toOff, PowerUnit.toIdle, same, h]

/-- Where the event has left the line as it was, its reply is placed as any other (R201). -/
theorem State.reply_of_line_kept (s : State) (r : Reply) : s.reply s.link.line.isNone r = s.placeReply r := by
  unfold State.reply
  cases s.link.line <;> rfl

/-- A gate's release of its unit, said at once (R102). -/
theorem State.releaseUnit_eq (s : State) (u : Option UnitNo) : s.releaseUnit u = releases s u := by
  cases u with
  | none => rfl
  | some u =>
    simp only [State.releaseUnit, releases]
    split <;> rfl

/-- A completion, said at once: the slot, the notice and the offer (R59, R62, R176). -/
theorem State.complete_eq (s : State) (k : SlotNo) (e : Ending) (o : Order) (h : (s.slot k).order = some o) :
    s.complete k e = completes s k o ((s.slot k).newReport e s.clock) := by
  have same : (s.slot k).completed o e s.clock = completedWith (s.slot k) o ((s.slot k).newReport e s.clock) := by
    unfold Slot.completed completedWith
    cases o.rep <;> rfl
  have state : (completedWith (s.slot k) o ((s.slot k).newReport e s.clock)).state = .done ↔ o.rep = .once := by
    unfold completedWith
    cases o.rep <;> simp
  have offered : ((completedWith (s.slot k) o ((s.slot k).newReport e s.clock)).state = .done ∧
      (s.slot k).owner = .sequence ∧ s.runner.has k = true ∧ s.locked k = false) ↔
      (o.rep == .once && (s.slot k).owner == .sequence && s.runner.has k && s.lock != some k) = true := by
    simp [state, State.locked, and_assoc]
  have slot : ∀ (x : Slot) (m : Notice), ((s.setSlot k x).notify m).slot k = x := by
    intro x m
    simp
  have owner : ∀ x, (completedWith (s.slot k) o x).owner = (s.slot k).owner := fun _ => rfl
  have runner : ∀ (x : Slot) (m : Notice), ((s.setSlot k x).notify m).runner = s.runner := fun _ _ => rfl
  have locked : ∀ (x : Slot) (m : Notice), ((s.setSlot k x).notify m).locked k = s.locked k := fun _ _ => rfl
  simp only [State.complete, h, same, completes, State.offer, slot, owner, runner, locked, offered]
  split <;> rfl
end Sys2Proof.Machine
end

