-- ==== Sys2Proof/Laws/Starter.lean ====
section
/-! SUPPORT. The law of the starter and its queue (R95) through every operation of a unit: what each leaves in the states
of the units and in the queue, and that the law is kept. -/

namespace Sys2Proof.Machine

open Sys2Proof.Safety

/-! ### The states of the units -/

/-- The states of the units. -/
def State.unitStates (s : State) (u : UnitNo) : UnitState := (s.unit u).state

/-- The states after unit `u` has entered `x`. -/
def entered (f : UnitNo → UnitState) (u : UnitNo) (x : UnitState) (v : UnitNo) : UnitState := if u = v then x else f v

theorem State.unitStates_setUnit (s : State) (u : UnitNo) (r : PowerUnit) :
    (s.setUnit u r).unitStates = entered s.unitStates u r.state := by
  funext v
  unfold State.unitStates entered
  by_cases e : u = v
  · subst e
    rw [State.unit_setUnit_self, if_pos rfl]
  · rw [State.unit_setUnit_ne s r e, if_neg e]

/-- A state that has nothing to do with the starter. -/
def Apart (x : UnitState) : Prop := x ≠ .starting ∧ x ≠ .startQueued

/-- The law while nobody holds the starter. -/
def Vacant (f : UnitNo → UnitState) (q : List UnitNo) : Prop :=
  (∀ u, f u ≠ .starting) ∧ q.Nodup ∧ ∀ u, u ∈ q ↔ f u = .startQueued

/-- The law of the starter, of states and queue (R95). -/
def Ordered (f : UnitNo → UnitState) (q : List UnitNo) : Prop :=
  (∀ u v, f u = .starting → f v = .starting → u = v) ∧ q.Nodup ∧ (∀ u, u ∈ q ↔ f u = .startQueued) ∧
    (q ≠ [] → ∃ u, f u = .starting)

theorem starterLawful_iff (s : State) : StarterLawful s ↔ Ordered s.unitStates s.startQueue := Iff.rfl

variable {f : UnitNo → UnitState} {q : List UnitNo} {u : UnitNo} {x : UnitState}

theorem entered_self (f : UnitNo → UnitState) (u : UnitNo) (x : UnitState) : entered f u x u = x := if_pos rfl

theorem entered_ne (f : UnitNo → UnitState) {u v : UnitNo} (x : UnitState) (h : u ≠ v) : entered f u x v = f v := if_neg h

/-- A unit apart from the starter changes to a state apart from it. -/
theorem Ordered.aside (h : Ordered f q) (a : Apart (f u)) (b : Apart x) : Ordered (entered f u x) q := by
  have st : ∀ v, entered f u x v = .starting ↔ f v = .starting := by
    intro v
    by_cases e : u = v
    · subst e
      rw [entered_self]
      exact ⟨fun k => absurd k b.1, fun k => absurd k a.1⟩
    · rw [entered_ne f x e]
  have qu : ∀ v, entered f u x v = .startQueued ↔ f v = .startQueued := by
    intro v
    by_cases e : u = v
    · subst e
      rw [entered_self]
      exact ⟨fun k => absurd k b.2, fun k => absurd k a.2⟩
    · rw [entered_ne f x e]
  refine ⟨fun v w hv hw => h.1 v w ((st v).1 hv) ((st w).1 hw), h.2.1, fun v => (h.2.2.1 v).trans (qu v).symm,
    fun ne => ?_⟩
  obtain ⟨v, hv⟩ := h.2.2.2 ne
  exact ⟨v, (st v).2 hv⟩

/-- A queued unit leaves the queue (R95). -/
theorem Ordered.leaves (h : Ordered f q) (a : f u = .startQueued) (b : Apart x) :
    Ordered (entered f u x) (q.filter (· != u)) := by
  have st : ∀ v, entered f u x v = .starting ↔ f v = .starting := by
    intro v
    by_cases e : u = v
    · subst e
      rw [entered_self, a]
      exact ⟨fun k => absurd k b.1, fun k => absurd k (by simp)⟩
    · rw [entered_ne f x e]
  refine ⟨fun v w hv hw => h.1 v w ((st v).1 hv) ((st w).1 hw), h.2.1.filter _, fun v => ?_, fun ne => ?_⟩
  · rw [List.mem_filter, h.2.2.1 v]
    by_cases e : u = v
    · subst e
      rw [entered_self]
      simp [b.2]
    · rw [entered_ne f x e]
      simp [Ne.symm e]
  · obtain ⟨v, hv⟩ := h.2.2.2 fun e => ne (by rw [e]; rfl)
    exact ⟨v, (st v).2 hv⟩

/-- The STARTING unit leaves the starter (R95). -/
theorem Ordered.vacates (h : Ordered f q) (a : f u = .starting) (b : Apart x) : Vacant (entered f u x) q := by
  refine ⟨fun v hv => ?_, h.2.1, fun v => ?_⟩
  · by_cases e : u = v
    · subst e
      rw [entered_self] at hv
      exact b.1 hv
    · rw [entered_ne f x e] at hv
      exact e (h.1 u v a hv)
  · rw [h.2.2.1 v]
    by_cases e : u = v
    · subst e
      rw [entered_self, a]
      exact ⟨fun k => absurd k (by simp), fun k => absurd k b.2⟩
    · rw [entered_ne f x e]

/-- A free starter with a lawful queue has an empty one. -/
theorem Ordered.vacant (h : Ordered f q) (none : ∀ v, f v ≠ .starting) : Vacant f q ∧ q = [] := by
  refine ⟨⟨none, h.2.1, h.2.2.1⟩, ?_⟩
  by_contra ne
  obtain ⟨v, hv⟩ := h.2.2.2 ne
  exact none v hv

/-- The head of the queue takes the starter (R95). -/
theorem Vacant.next {l : List UnitNo} (h : Vacant f (u :: l)) : Ordered (entered f u .starting) l := by
  have nd := List.nodup_cons.1 h.2.1
  have one : ∀ v, entered f u .starting v = .starting → u = v := by
    intro v hv
    by_contra e
    rw [entered_ne f _ e] at hv
    exact h.1 v hv
  refine ⟨fun v w hv hw => (one v hv).symm.trans (one w hw), nd.2, fun v => ?_, fun _ => ⟨u, entered_self _ _ _⟩⟩
  by_cases e : u = v
  · subst e
    rw [entered_self]
    exact ⟨fun k => absurd k nd.1, fun k => absurd k (by simp)⟩
  · rw [entered_ne f _ e, ← h.2.2 v]
    exact ⟨fun k => List.mem_cons_of_mem _ k, fun k => (List.mem_cons.1 k).resolve_left fun e' => e e'.symm⟩

/-- A faulted head leaves the queue (R97). -/
theorem Vacant.skip {l : List UnitNo} (h : Vacant f (u :: l)) (b : Apart x) : Vacant (entered f u x) l := by
  have nd := List.nodup_cons.1 h.2.1
  refine ⟨fun v hv => ?_, nd.2, fun v => ?_⟩
  · by_cases e : u = v
    · subst e
      rw [entered_self] at hv
      exact b.1 hv
    · rw [entered_ne f x e] at hv
      exact h.1 v hv
  · by_cases e : u = v
    · subst e
      rw [entered_self]
      exact ⟨fun k => absurd k nd.1, fun k => absurd k b.2⟩
    · rw [entered_ne f x e, ← h.2.2 v]
      exact ⟨fun k => List.mem_cons_of_mem _ k, fun k => (List.mem_cons.1 k).resolve_left fun e' => e e'.symm⟩

theorem Vacant.ordered (h : Vacant f []) : Ordered f [] :=
  ⟨fun v _ hv => absurd hv (h.1 v), h.2.1, h.2.2, fun ne => absurd rfl ne⟩

/-! ### The operations of a unit -/

theorem Apart.out : Apart .outOfService := ⟨by simp, by simp⟩
theorem Apart.off : Apart .off := ⟨by simp, by simp⟩
theorem Apart.idle : Apart .idle := ⟨by simp, by simp⟩
theorem Apart.liningUp : Apart .liningUp := ⟨by simp, by simp⟩
theorem Apart.assigned : Apart .assigned := ⟨by simp, by simp⟩

variable {s : State}

theorem State.unitStates_takeOut (s : State) (u : UnitNo) (c : OutCause) :
    (s.takeOut u c).unitStates = entered s.unitStates u .outOfService := s.unitStates_setUnit u _

theorem StarterLawful.returnReserved {k : Option SlotNo} (h : StarterLawful s) : StarterLawful (s.returnReserved k) := by
  unfold State.returnReserved
  split
  · unfold State.returnGrant
    split
    · exact h
    · exact h
  · exact h

/-- The starter passes the start on: from a free starter to a lawful one (R95, R97). -/
theorem State.starter_passStarter (l : List UnitNo) (s : State) (h : Vacant s.unitStates l) :
    StarterLawful (State.passStarter l s) := by
  induction l generalizing s with
  | nil => exact h.ordered
  | cons u l ih =>
    unfold State.passStarter
    split
    · refine StarterLawful.returnReserved (ih _ ?_)
      rw [State.unitStates_takeOut]
      exact h.skip .out
    · refine (starterLawful_iff _).2 ?_
      unfold State.modUnit
      rw [State.unitStates_setUnit]
      exact h.next

/-- A unit apart from the starter enters a state apart from it. -/
theorem StarterLawful.aside (h : StarterLawful s) (u : UnitNo) (r : PowerUnit) (a : Apart (s.unit u).state)
    (b : Apart r.state) : StarterLawful (s.setUnit u r) := by
  refine (starterLawful_iff _).2 ?_
  rw [State.unitStates_setUnit]
  exact Ordered.aside h a b

/-- A unit keeps its state. -/
theorem StarterLawful.same (h : StarterLawful s) (u : UnitNo) (r : PowerUnit) (e : r.state = (s.unit u).state) :
    StarterLawful (s.setUnit u r) := by
  refine (starterLawful_iff _).2 ?_
  rw [State.unitStates_setUnit]
  have : entered s.unitStates u r.state = s.unitStates := by
    funext v
    unfold entered
    split
    · next x => exact x ▸ e
    · rfl
  rw [this]
  exact h

/-- A queued unit leaves the queue. -/
theorem StarterLawful.leaves (h : StarterLawful s) (u : UnitNo) (r : PowerUnit) (a : (s.unit u).state = .startQueued)
    (b : Apart r.state) : StarterLawful ((s.setUnit u r).setStartQueue (s.startQueue.filter (· != u))) := by
  refine (starterLawful_iff _).2 ?_
  show Ordered (s.setUnit u r).unitStates _
  rw [State.unitStates_setUnit]
  exact Ordered.leaves h a b

/-- The STARTING unit leaves, and the starter passes on. -/
theorem StarterLawful.passed (h : StarterLawful s) (u : UnitNo) (r : PowerUnit) (a : (s.unit u).state = .starting)
    (b : Apart r.state) : StarterLawful (State.passStarter s.startQueue (s.setUnit u r)) := by
  refine State.starter_passStarter _ _ ?_
  rw [State.unitStates_setUnit]
  exact Ordered.vacates h a b

theorem State.starting_none (h : s.starting = none) (u : UnitNo) : s.unitStates u ≠ .starting := by
  intro e
  have := List.find?_eq_none.1 h u (List.mem_finRange u)
  exact this (beq_iff_eq.2 e)

theorem State.starting_some {v : UnitNo} (h : s.starting = some v) : s.unitStates v = .starting := by
  have := List.find?_some h
  exact beq_iff_eq.1 this

theorem StarterLawful.takeOut (h : StarterLawful s) (u : UnitNo) (c : OutCause) (a : Apart (s.unit u).state) :
    StarterLawful (s.takeOut u c) := StarterLawful.aside h u _ a .out

/-- A start request for an OFF unit (R95, R97). -/
theorem StarterLawful.requestStart (h : StarterLawful s) (u : UnitNo) (k : SlotNo) (g : GateNo)
    (a : (s.unit u).state = .off) : StarterLawful (s.requestStart u k g) := by
  have apart : Apart (s.unit u).state := a ▸ .off
  unfold State.requestStart
  split
  · next no _ =>
    obtain ⟨v, e⟩ := Ordered.vacant h (State.starting_none no)
    refine (starterLawful_iff _).2 ?_
    unfold State.modUnit
    rw [State.unitStates_setUnit]
    have v' : Vacant s.unitStates [] := e ▸ v
    show Ordered _ s.startQueue
    rw [e]
    refine ⟨fun x y hx hy => ?_, List.nodup_nil, fun x => ?_, fun ne => absurd rfl ne⟩
    · have one : ∀ z, entered s.unitStates u .starting z = .starting → u = z := by
        intro z hz
        by_contra ne
        rw [entered_ne _ _ ne] at hz
        exact v.1 z hz
      exact (one x hx).symm.trans (one y hy)
    · rw [v'.2.2 x]
      by_cases ne : u = x
      · subst ne
        show _ ↔ entered _ _ .starting _ = _
        rw [entered_self]
        exact ⟨fun k => absurd (a.symm.trans k) (by simp), fun k => absurd k (by simp)⟩
      · rw [entered_ne _ _ ne]
  · next w yes _ =>
    have st := State.starting_some yes
    refine (starterLawful_iff _).2 ?_
    show Ordered ((s.setUnit u _).unitStates) (s.startQueue ++ [u])
    rw [State.unitStates_setUnit]
    show Ordered (entered s.unitStates u .startQueued) _
    have keep : ∀ v, entered s.unitStates u .startQueued v = .starting ↔ s.unitStates v = .starting := by
      intro v
      by_cases e : u = v
      · subst e
        rw [entered_self]
        exact ⟨fun k => absurd k (by simp), fun k => absurd (a.symm.trans k) (by simp)⟩
      · rw [entered_ne _ _ e]
    have out : u ∉ s.startQueue := fun m => absurd (a.symm.trans ((h.2.2.1 u).1 m)) (by simp)
    refine ⟨fun x y hx hy => h.1 x y ((keep x).1 hx) ((keep y).1 hy), ?_, fun x => ?_, fun _ => ⟨w, (keep w).2 st⟩⟩
    · refine List.nodup_append.2 ⟨h.2.1, List.nodup_singleton u, ?_⟩
      intro x hx y hy e
      exact out (List.mem_singleton.1 hy ▸ e ▸ hx)
    · rw [List.mem_append, List.mem_singleton, h.2.2.1 x]
      by_cases e : u = x
      · subst e
        rw [entered_self]
        simp
      · rw [entered_ne _ _ e]
        exact ⟨fun k => k.resolve_right fun e' => e e'.symm, .inl⟩
  · next no _ =>
    refine StarterLawful.returnReserved (k := some k) (State.starter_passStarter _ _ ?_)
    have := (Ordered.vacant (StarterLawful.takeOut h u .fault apart) ?_).1
    · exact this
    · intro v
      show (s.takeOut u .fault).unitStates v ≠ _
      rw [State.unitStates_takeOut]
      by_cases e : u = v
      · subst e
        rw [entered_self]
        simp
      · rw [entered_ne _ _ e]
        exact State.starting_none no v
  · exact StarterLawful.returnReserved (k := some k) (StarterLawful.takeOut h u .fault apart)

/-- A grant reaches a unit (R96). -/
theorem StarterLawful.grantUnit (h : StarterLawful s) (u : UnitNo) (k : SlotNo) (g : GateNo) :
    StarterLawful (s.grantUnit u k g) := by
  unfold State.grantUnit
  split
  · next e => exact StarterLawful.requestStart h u k g e
  · next e => exact StarterLawful.aside h u _ (e ▸ .idle) .liningUp
  · exact h

/-- An abandoned grant hands its unit back (R87). -/
theorem StarterLawful.handBack (h : StarterLawful s) (u : UnitNo) : StarterLawful (s.handBack u) := by
  unfold State.handBack
  split
  · next e => exact StarterLawful.leaves h u _ e .off
  · exact StarterLawful.same h u _ rfl
  · next e => exact StarterLawful.aside h u _ (e ▸ .liningUp) .idle
  · exact h

theorem StarterLawful.handBackOf (h : StarterLawful s) (old : Slot) : StarterLawful (s.handBackOf old) := by
  unfold State.handBackOf
  split
  · exact StarterLawful.handBack h _
  · exact h
  · exact h

theorem StarterLawful.releaseUnit (h : StarterLawful s) (u : Option UnitNo) : StarterLawful (s.releaseUnit u) := by
  unfold State.releaseUnit
  split
  · exact h
  · split
    · next e => exact StarterLawful.aside h _ _ (e ▸ .assigned) .idle
    · exact h

/-- Ready feedback of a STARTING unit (R98). -/
theorem StarterLawful.unitReady (h : StarterLawful s) (u : UnitNo) (e : (s.unit u).state = .starting) :
    StarterLawful (s.unitReady u) := by
  unfold State.unitReady
  simp only
  split
  · exact StarterLawful.passed h u _ e .liningUp
  · refine State.starter_passStarter _ _ ?_
    show Vacant ((s.setUnit u _).unitStates) s.startQueue
    rw [State.unitStates_setUnit]
    exact Ordered.vacates h e .idle

theorem State.vacant_takeOut (h : StarterLawful s) (u : UnitNo) (c : OutCause) (e : (s.unit u).state = .starting) :
    Vacant (s.takeOut u c).unitStates s.startQueue := by
  rw [State.unitStates_takeOut]
  exact Ordered.vacates h e .out

/-- The start timer of a STARTING unit expires (R99). -/
theorem StarterLawful.startFailed (h : StarterLawful s) (u : UnitNo) (e : (s.unit u).state = .starting) :
    StarterLawful (s.startFailed u) :=
  StarterLawful.returnReserved (State.starter_passStarter _ _ (State.vacant_takeOut h u .startFailed e))

theorem StarterLawful.lineUpFailed (h : StarterLawful s) (u : UnitNo) (e : (s.unit u).state = .liningUp) :
    StarterLawful (s.lineUpFailed u) := StarterLawful.returnReserved (StarterLawful.takeOut h u .lineUp (e ▸ .liningUp))

theorem StarterLawful.idleStopped (h : StarterLawful s) (u : UnitNo) (e : (s.unit u).state = .idle) :
    StarterLawful (s.idleStopped u) := StarterLawful.aside h u _ (e ▸ .idle) .off

/-- A fault of a unit that is not ASSIGNED (R104). -/
theorem StarterLawful.unitFault (h : StarterLawful s) (u : UnitNo) : StarterLawful (s.unitFault u) := by
  unfold State.unitFault
  simp only
  split
  · next e =>
    refine StarterLawful.returnReserved ?_
    exact StarterLawful.leaves h u _ e .out
  · next e => exact StarterLawful.returnReserved (State.starter_passStarter _ _ (State.vacant_takeOut h u .fault e))
  · next e => exact StarterLawful.returnReserved (StarterLawful.takeOut h u .fault (e ▸ .liningUp))
  · next e => exact StarterLawful.takeOut h u .fault (e ▸ .idle)
  · exact h

end Sys2Proof.Machine
end

