-- ==== Sys2Proof/Laws/TideLaws.lean ====
section
/-! SUPPORT. What the operations of the tide monitor do to the sea-side history, to the settings and to the thresholds
(R114, R117, R123, R127). -/

namespace Sys2Proof.Machine

/-- An append leaves at most 61 entries (R123). -/
theorem length_appendLevel (h : List Int) (x : Int) (b : h.length ≤ 61) : (appendLevel h x).length ≤ 61 := by
  unfold appendLevel
  split
  · simp only [List.length_append, List.length_tail, List.length_singleton]
    omega
  · simp only [List.length_append, List.length_singleton]
    omega

/-- The newest entry is the level appended (R123). -/
theorem getLast_appendLevel (h : List Int) (x : Int) : (appendLevel h x).getLast? = some x := by
  simp [appendLevel]

/-- The surge test follows the append (R123, R124). -/
theorem Tide.history_append (t : Tide) (x : Int) (now : Clock) : (t.append x now).1.history = appendLevel t.history x := by
  unfold Tide.append
  simp only
  split
  · rfl
  · split <;> rfl
  · split <;> rfl

/-- Offering a value to thresholds leaves everything else of the monitor (R117). -/
theorem Tide.offerTo_others (sig : Signal) (v : Int) (now : Clock) (l : List ThrNo) (t : Tide) :
    ∃ r, (t.offerTo sig v now l).1 = { t with thresholds := r } := by
  induction l generalizing t with
  | nil => exact ⟨t.thresholds, rfl⟩
  | cons i l ih =>
    unfold Tide.offerTo
    simp only
    split
    · obtain ⟨r, h⟩ := ih (t.setThreshold i ((t.thresholds.get i).evaluate v).1)
      refine ⟨r, ?_⟩
      split
      · exact h
      · exact h
    · exact ih t

theorem Tide.history_offerTo (sig : Signal) (v : Int) (now : Clock) (l : List ThrNo) (t : Tide) :
    (t.offerTo sig v now l).1.history = t.history := by
  obtain ⟨r, h⟩ := Tide.offerTo_others sig v now l t
  rw [h]

theorem Tide.history_confirm (t : Tide) (x : Int) (now : Clock) : (t.confirm x now).1.history = t.history := by
  unfold Tide.confirm
  split
  · rfl
  · simp only
    split
    · split <;> rfl
    · split <;> rfl

theorem Tide.history_formHead (t : Tide) (fresh : Bool) (now : Clock) : (t.formHead fresh now).1.history = t.history := by
  unfold Tide.formHead
  split
  · split
    · exact (Tide.history_confirm _ _ _).trans (Tide.history_offerTo _ _ _ _ _)
    · rfl
  · split
    · rfl
    · rfl

theorem Tide.history_setGauge (t : Tide) (g : Gauge) (r : GaugeRec) : (t.setGauge g r).history = t.history := by
  cases g <;> rfl

theorem Tide.history_serveLevel (t : Tide) (g : Gauge) (r : GaugeRec) (w : Bool) (now : Clock) :
    (t.serveLevel g r w now).1.history = t.history := by
  unfold Tide.serveLevel
  split
  · exact Tide.history_offerTo _ _ _ _ _
  · rfl
  · split <;> rfl

/-- Step 2 leaves the history as it was, empties it, or appends to it (R123). -/
theorem Tide.history_keepHistory (t : Tide) (g : Gauge) (r : GaugeRec) (w : Bool) (now : Clock) :
    (t.keepHistory g r w now).1.history = t.history ∨ (t.keepHistory g r w now).1.history = [] ∨
      ∃ x, (t.keepHistory g r w now).1.history = appendLevel t.history x := by
  unfold Tide.keepHistory
  split
  · exact .inr (.inr ⟨_, Tide.history_append _ _ _⟩)
  · split
    · exact .inr (.inl rfl)
    · exact .inl rfl
  · exact .inl rfl

/-- An arrival leaves the history as it was, empties it, or appends to it (R123). -/
theorem Tide.history_serve (t : Tide) (g : Gauge) (r : GaugeRec) (now : Clock) :
    (t.serve g r now).1.history = t.history ∨ (t.serve g r now).1.history = [] ∨
      ∃ x, (t.serve g r now).1.history = appendLevel t.history x := by
  have h := (t.setGauge g r).history_keepHistory g r (decide ((t.gauge g).state = .good)) now
  rw [Tide.history_setGauge] at h
  unfold Tide.serve
  simp only
  rw [Tide.history_formHead, Tide.history_serveLevel]
  exact h

/-! ### What a value does to the thresholds of its signal -/

/-- A threshold once value `v` of signal `sig` has been offered to it (R116, R117). -/
def Threshold.after (r : Threshold) (sig : Signal) (v : Int) : Threshold := if r.serves sig then (r.evaluate v).1 else r

/-- The event that threshold `i` raises when it is served (R117, R125). -/
def Threshold.raises (r : Threshold) (sig : Signal) (v : Int) (now : Clock) (i : ThrNo) : Option TideEvent :=
  if r.serves sig then (r.evaluate v).2.map fun k => { kind := k, index := some i, gauge := none, value := v, time := now }
  else none

theorem Tide.get_setThreshold_self (t : Tide) (i : ThrNo) (r : Threshold) : (t.setThreshold i r).thresholds.get i = r := by
  simp [Tide.setThreshold, Vector.get_eq_getElem]

theorem Tide.get_setThreshold_ne (t : Tide) {i j : ThrNo} (r : Threshold) (h : i ≠ j) :
    (t.setThreshold i r).thresholds.get j = t.thresholds.get j := by
  have hv : i.val ≠ j.val := fun e => h (Fin.ext e)
  simp [Tide.setThreshold, Vector.get_eq_getElem, hv]

/-- A value offered to a list of thresholds serves those on its signal, each once, and raises their events in list order
(R114, R117). -/
theorem Tide.offerTo_spec (sig : Signal) (v : Int) (now : Clock) (l : List ThrNo) (once : l.Nodup) (t : Tide) :
    (∀ j, (t.offerTo sig v now l).1.thresholds.get j =
      if j ∈ l then (t.thresholds.get j).after sig v else t.thresholds.get j) ∧
    (t.offerTo sig v now l).2 = l.filterMap fun j => (t.thresholds.get j).raises sig v now j := by
  induction l generalizing t with
  | nil => simp [Tide.offerTo]
  | cons i l ih =>
    have fresh : i ∉ l := (List.nodup_cons.1 once).1
    have rest := ih (List.nodup_cons.1 once).2
    have other : ∀ {j}, j ∈ l → i ≠ j := fun h e => fresh (e ▸ h)
    unfold Tide.offerTo
    by_cases h : (t.thresholds.get i).serves sig = true
    · let t' := t.setThreshold i ((t.thresholds.get i).evaluate v).1
      have events : (l.filterMap fun j => (t'.thresholds.get j).raises sig v now j) =
          l.filterMap fun j => (t.thresholds.get j).raises sig v now j :=
        List.filterMap_congr fun j hj => by rw [Tide.get_setThreshold_ne t _ (other hj)]
      have records : ∀ j, (t'.offerTo sig v now l).1.thresholds.get j =
          if j ∈ i :: l then (t.thresholds.get j).after sig v else t.thresholds.get j := by
        intro j
        rw [(rest t').1 j]
        by_cases e : i = j
        · subst e
          simp [fresh, t', Tide.get_setThreshold_self, Threshold.after, h]
        · simp [t', Tide.get_setThreshold_ne t _ e, Ne.symm e]
      have raised := (rest t').2.trans events
      simp only [h, if_true]
      constructor
      · intro j
        split <;> exact records j
      · cases k : ((t.thresholds.get i).evaluate v).2 <;>
          simpa [Threshold.raises, h, k] using raised
    · have idle : (t.thresholds.get i).serves sig = false := by simpa using h
      simp only [idle, Bool.false_eq_true, if_false]
      constructor
      · intro j
        rw [(rest t).1 j]
        by_cases e : i = j
        · subst e
          simp [fresh, Threshold.after, idle]
        · simp [Ne.symm e]
      · rw [(rest t).2]
        simp [Threshold.raises, idle]

end Sys2Proof.Machine
end

