-- ==== Sys2Proof/Tests/Slice0.lean ====
section
/-! SUPPORT. Tests on small states: ill-formed commands, the spec's worked examples, one or two steps per command, and a
state that meets the hypotheses of each statement. -/

namespace Sys2Proof.Tests

open Sys2Proof.Machine Sys2Proof.Safety

set_option maxRecDepth 100000

/-! ### Ill-formed commands are refused by the check -/

/-- A CONFIGURE_GATE whose fields are all in range: the defaults of R11. -/
def gateFields : RawGate :=
  { openingMax := 8000, swap := 0, lDir := 0, lZero := 0, lScale := 100, rDir := 0, rZero := 0, rScale := 100,
    deadband := 10, skewTrim := 40, skewTrip := 100, approach := 300, releaseTime := 5, buildSteps := 6,
    buildPressure := 120, lockTime := 5, quietCount := 8, permitted := 7, overrideAllowed := 0 }

def tideFields : RawTide :=
  { upLow := -5000, upHigh := 15000, downLow := -5000, downHigh := 15000, turnBand := 100, turnConfirm := 10,
    surgeRate := 300 }

def thresholdFields : RawThreshold := { index := 2, signal := 1, level := 1200, hysteresis := 100, enabled := 1 }

def queueFields : RawQueue := { gate := 3, base := 64, size := 8, limit := 6, limitDir := 1, holdTime := 30 }

/-- A SET order for G0 to 3000 mm at NORMAL, priority 4, CLAMP, no trigger. -/
def orderFields : RawOrder :=
  { kind := 0, gate := 0, targetPresence := 1, target := 3000, speed := 1, priority := 4, rule := 0,
    triggerPresence := 0, eventKind := 0, thrIndex := 0, rep := 0, tag := 7 }

/-- The same order on a TURN_FLOOD trigger, REARM. -/
def armedFields : RawOrder := { orderFields with triggerPresence := 1, eventKind := 3, thrIndex := 8, rep := 1 }

def windowFields : RawWindow := { firstStep := 2, lastStep := 3, firstGate := 0, lastGate := 1, advance := 0 }

def sequenceFields : RawSequence :=
  { firstStep := 0, lastStep := 1, repetitions := 1, windowFirst := 4, windowLast := 7, priority := 3, speed := 1,
    rule := 0 }

theorem test_wellFormed_accepts :
    [Instr.configureGatePresent 1 0 gateFields, .configureTide 1 tideFields, .configureThreshold 1 thresholdFields,
      .configureQueue 1 queueFields, .postOrder 1 3 orderFields, .setLoadWindow 1 windowFields,
      .defineSequence 1 sequenceFields, .setNotices 1 [1, 1, 1, 1, 1, 1, 1, 1, 1, 0], .writeCells 1 [65535, 0],
      .pushPoints 1 0 [⟨100, 10, 0⟩], .gaugeSample .up (-32768), .encoderSample 0 .a 16777215 400 50].all
      Instr.wf = true := by decide

theorem test_wellFormed_gateFields :
    [{ gateFields with openingMax := 32768 }, { gateFields with swap := 256 }, { gateFields with lDir := 256 },
      { gateFields with lZero := 16777216 }, { gateFields with lScale := 65536 }, { gateFields with rDir := 256 },
      { gateFields with rZero := 16777216 }, { gateFields with rScale := 65536 }, { gateFields with deadband := -32769 },
      { gateFields with skewTrim := 32768 }, { gateFields with skewTrip := 32768 }, { gateFields with approach := 32768 },
      { gateFields with releaseTime := 256 }, { gateFields with buildSteps := 256 },
      { gateFields with buildPressure := 65536 }, { gateFields with lockTime := 256 },
      { gateFields with quietCount := 256 }, { gateFields with permitted := 256 },
      { gateFields with overrideAllowed := 256 }].any (fun p => (Instr.configureGatePresent 1 0 p).wf) = false := by
  decide

theorem test_wellFormed_tideFields :
    [{ tideFields with upLow := 32768 }, { tideFields with upHigh := 32768 }, { tideFields with downLow := 32768 },
      { tideFields with downHigh := 32768 }, { tideFields with turnBand := 32768 },
      { tideFields with turnConfirm := 256 }, { tideFields with surgeRate := 32768 }].any
      (fun f => (Instr.configureTide 1 f).wf) = false := by decide

theorem test_wellFormed_thresholdFields :
    [{ thresholdFields with index := 256 }, { thresholdFields with signal := 256 },
      { thresholdFields with level := 32768 }, { thresholdFields with hysteresis := -32769 },
      { thresholdFields with enabled := 256 }].any (fun f => (Instr.configureThreshold 1 f).wf) = false := by decide

theorem test_wellFormed_queueFields :
    [{ queueFields with gate := 256 }, { queueFields with base := 256 }, { queueFields with size := 256 },
      { queueFields with limit := 256 }, { queueFields with limitDir := 256 }, { queueFields with holdTime := 65536 }].any
      (fun f => (Instr.configureQueue 1 f).wf) = false := by decide

theorem test_wellFormed_orderFields :
    [{ orderFields with kind := 256 }, { orderFields with gate := 256 }, { orderFields with targetPresence := 256 },
      { orderFields with target := 32768 }, { orderFields with speed := 256 }, { orderFields with priority := 256 },
      { orderFields with rule := 256 }, { orderFields with triggerPresence := 256 },
      { orderFields with eventKind := 256 }, { orderFields with thrIndex := 256 }, { orderFields with rep := 256 },
      { orderFields with tag := 65536 }].any (fun f => (Instr.postOrder 1 0 f).wf) = false := by decide

theorem test_wellFormed_windowFields :
    [{ windowFields with firstStep := 256 }, { windowFields with lastStep := 256 },
      { windowFields with firstGate := 256 }, { windowFields with lastGate := 256 },
      { windowFields with advance := 256 }].any (fun f => (Instr.setLoadWindow 1 f).wf) = false := by decide

theorem test_wellFormed_sequenceFields :
    [{ sequenceFields with firstStep := 256 }, { sequenceFields with lastStep := 256 },
      { sequenceFields with repetitions := 256 }, { sequenceFields with windowFirst := 256 },
      { sequenceFields with windowLast := 256 }, { sequenceFields with priority := 256 },
      { sequenceFields with speed := 256 }, { sequenceFields with rule := 256 }].any
      (fun f => (Instr.defineSequence 1 f).wf) = false := by decide

theorem test_wellFormed_lists :
    [Instr.setNotices 1 [1], .setNotices 1 [1, 1, 1, 1, 1, 1, 1, 1, 1, 256], .configureEnvelope 1 [] (List.replicate 48 0),
      .configureEnvelope 1 (List.replicate 7 0) [], .configureEnvelope 1 (List.replicate 7 32768) (List.replicate 48 0),
      .configureEnvelope 1 (List.replicate 7 0) (List.replicate 48 32768), .pushPoints 1 0 (List.replicate 50 ⟨0, 1, 0⟩),
      .pushPoints 1 256 [], .pushPoints 1 0 [⟨32768, 1, 0⟩], .pushPoints 1 0 [⟨0, 65536, 0⟩],
      .pushPoints 1 0 [⟨0, 1, 256⟩], .writeCells 1 (List.replicate 125 0), .writeCells 1 [65536]].any Instr.wf = false := by
  decide

theorem test_wellFormed_numbers :
    [Instr.configureGatePresent 1 256 gateFields, .configureGateAbsent 1 256, .configureUnit 1 256 10,
      .configureUnit 1 0 65536, .configureArbiter 1 256, .postOrder 1 256 orderFields, .withdrawOrder 1 256,
      .readSlot 1 256, .unlock 1 256, .readGate 1 256, .stopGate 1 256, .clearTrip 1 256, .setUnitServiceOut 1 256,
      .setUnitServiceIn 1 256, .peekPoints 1 256 0 1, .peekPoints 1 0 256 1, .peekPoints 1 0 0 256, .flushPoints 1 256,
      .readQueue 1 256, .setStepDwell 1 256 0, .setStepDwell 1 0 65536, .readCells 1 256,
      .encoderSample 0 .a 16777216 0 50, .encoderSample 0 .a 0 401 50, .gaugeSample .up 32768].any Instr.wf = false := by
  decide

/-! ### Numbers of the spec's examples -/

/-- R198: the check value of the CRC. -/
theorem test_crc : crc16 [0x31, 0x32, 0x33, 0x34, 0x35, 0x36, 0x37, 0x38, 0x39] = 0x29B1#16 := by decide

/-- The converting example of chapter 1. -/
theorem test_openings : openingOf .upCounts 120000 100 152345 = 3234 ∧ openingOf .downCounts 9000000 64 8979170 = 3254 ∧
    openingOf .upCounts 120000 100 119833 = -16 := by decide

/-- R5: the gate opening and skew of that example. -/
theorem test_gateOpening :
    ({ GateRec.cold with endL := { EndRec.cold with held := some 3254 },
                         endR := { EndRec.cold with held := some 3234 } } : GateRec).opening = some 3244 ∧
    ({ GateRec.cold with endL := { EndRec.cold with held := some 3254 },
                         endR := { EndRec.cold with held := some 3234 } } : GateRec).skew = some 20 := by decide

/-- The stream rates of chapter 8. -/
theorem test_streamRates : streamRate 300 600 = 5 ∧ streamRate 250 400 = 6 ∧ streamRate 20 100 = 2 ∧
    streamRate 900 50 = 8 ∧ streamRate 15 300 = 2 := by decide

/-- The bands of chapter 7 at the cold-reset boundaries. -/
theorem test_bands : bandOf Envelope.cold.boundaries 280 = 4 ∧ bandOf Envelope.cold.boundaries 300 = 5 ∧
    bandOf Envelope.cold.boundaries (-2001) = 0 ∧ bandOf Envelope.cold.boundaries 2000 = 7 := by decide

/-- The line-up checks of chapter 7. -/
theorem test_lineUpLimits : limitedTarget .set .clamp 2000 4000 5000 = some 4000 ∧
    limitedTarget .set .refuse 2000 3800 5000 = some 2000 ∧ limitedTarget .set .clamp 4500 4000 5000 = some 4500 ∧
    limitedTarget .set .refuse 4500 4000 3000 = none ∧ limitedTarget .level .clamp 0 0 100 = none ∧
    limitedTarget .stream .override 0 0 100 = none := by decide

/-- R117 at the edges of a threshold at 1200 with hysteresis 100. -/
theorem test_thresholdEdges :
    let r : Threshold := { signal := .down, level := 1200, hysteresis := 100, enabled := true, state := .below }
    r.evaluate 1200 = ({ r with state := .above }, some .rise) ∧ r.evaluate 1199 = (r, none) ∧
      ({ r with state := .above } : Threshold).evaluate 1100 = ({ r with state := .above }, none) ∧
      ({ r with state := .above } : Threshold).evaluate 1099 = (r, some .fall) := by decide

/-- R124: a rise of 301 over a full history raises SURGE at the cold-reset rate; one of 300 does not. -/
theorem test_surge :
    ((({ Tide.cold with history := List.replicate 60 0 } : Tide).append 301 0).1.surge,
      (({ Tide.cold with history := List.replicate 60 0 } : Tide).append 300 0).1.surge,
      (({ Tide.cold with history := List.replicate 59 0 } : Tide).append 301 0).1.surge) = (true, false, false) := by
  decide

/-! ### Small states -/

/-- After reset, the COLD_RESET notice sent: CONFIG, every gate ABSENT, the line idle. -/
def quiet : State := { State.reset with link := .cold .low }

/-- A GOOD end that holds opening `x`, its last pressure 130 bar. -/
def goodEnd (x : Int) : EndRec :=
  { EndRec.cold with status := .good, held := some x, reference := some x, silence := some 250, pressure := some 130 }

/-- A gate at the openings `l` and `r` with the default parameters. -/
def gateAt (st : GateState) (l r : Int) : GateRec := { GateRec.cold with state := st, endL := goodEnd l, endR := goodEnd r }

/-- CONFIG with G0 PARKED at 1000 mm. -/
def cfg : State := quiet.setGate 0 (gateAt .parked 1000 1000)

/-- The same in RUN. -/
def run : State := { cfg with mode := .run }

/-- The SET order of the fields above. -/
def order0 : Order := orderOf orderFields 0

/-- A slot with an order of the host. -/
def slotIn (st : SlotState) (o : Order) : Slot := { Slot.empty with state := st, order := some o }

/-- A report with outcome `x`, unread. -/
def reportOf (x : OrderOutcome) : Report :=
  { outcome := x, cause := none, finalL := none, finalR := none, startTime := none, endTime := 0, unitUsed := none,
    unread := true, overwritten := false }

/-- The move of a SET order to 3000 mm from slot O3 with unit P2, the target taken. -/
def setMove : Move :=
  { Move.empty with slot := some 3, unit := some 2, order := some { kind := .set, speed := .normal, rule := .clamp },
                    orderTarget := some 3000, target := some 3000 }

/-- Both lock-pin inputs of G0 at `p`. -/
def pins0 (p : PinPos) (s : State) : State := s.setPinInput 0 ⟨p, p⟩

/-- RUN with G0 in state `st` running that move: O3 RUNNING, P2 ASSIGNED, its pins at `p`. -/
def moving (st : GateState) (p : PinPos) (l r : Int) : State :=
  pins0 p (((run.setGate 0 { gateAt st l r with move := setMove }).setSlot 3
    { slotIn .running order0 with unit := some 2, grantTime := some 0, startTime := some 0 }).setUnit 2
    { PowerUnit.cold with state := .assigned, gate := some 0, pump := true, manifold := some 0 })

/-- The same with phase timer `t`. -/
def timed (st : GateState) (t : PhaseTimer) (p : PinPos) : State :=
  (moving st p 1000 1000).modGate 0 fun r => { r with phase := some (t, 500) }

/-- RUN with O3 GRANTED, its unit P2 in state `st` for G0. -/
def granted (st : UnitState) (t : UnitTimer) : State :=
  (run.setSlot 3 { slotIn .granted order0 with unit := some 2, grantTime := some 0 }).setUnit 2
    { PowerUnit.cold with state := st, slot := some 3, gate := some 0, timer := some (t, 5000), pump := true,
                          manifold := if st = .liningUp then some 0 else none }

/-- The sequence of the fields above. -/
def sequence0 : SequenceDef :=
  { firstStep := 0, lastStep := 1, repetitions := 1, windowFirst := 4, windowLast := 7, priority := 3, speed := .normal,
    rule := .clamp }

/-- A stage table whose steps S0 and S1 move G0 to 3000 and 1000 mm. -/
def stage0 : Stage :=
  let row0 : StageStep := { dwell := 5, cells := StageStep.cold.cells.set 0 (some 3000) }
  let row1 : StageStep := { dwell := 0, cells := StageStep.cold.cells.set 0 (some 1000) }
  { Stage.cold with steps := (Stage.cold.steps.set 0 row0).set 1 row1 }

/-- CONFIG with that sequence defined. -/
def defined : State := { cfg with definition := some sequence0, stage := stage0 }

/-- The runner in state `st` of step S0, pass 1. -/
def runnerIn (st : RunnerState) : Runner :=
  { Runner.idle with state := st, step := some 0, pass := some 1, pointer := some 4, posted := some 0,
                     anyClamped := some false }

/-- CONFIG with the runner in STEP: O4 of G0 outstanding in slot state `st`. -/
def stepping (st : SlotState) : State :=
  (defined.setSlot 4 { slotIn st (sequence0.order 0 (0, 3000)) with
    owner := .sequence, report := if st = .done then some (reportOf .reached) else none }).setRunner
    { runnerIn .step with outstanding := [(4, 0)], posted := some 1, offers := if st = .done then [4] else [] }

/-- CONFIG with the window full of the host's ARMED orders. -/
def fullWindow (s : State) : State :=
  sequence0.window.foldl (fun s k => s.setSlot k (slotIn .armed (orderOf armedFields 0))) s

/-- A queue of G0 of eight cells holding the points `l`. -/
def queueOf (l : List Point) : Queue := { Queue.cold with base := 0, size := 8, limit := 2, points := l }

/-- The state a command leads to. -/
def after (i : Instr) (s : State) : State :=
  match exec i s with
  | .next t => t
  | _ => s

/-! ### Steps -/

theorem test_reset_notice : State.reset.link.line = some (.notice (.mode .config none none .coldReset 0)) ∧
    (after (.coldReset .high) State.reset).link.rate = .high := by decide

theorem test_resetLine :
    ((after .resetLineAsserted (moving .travel .withdrawn 1000 1000)).gate 0).endL.pinCmd = .engage ∧
    ((after .resetLineAsserted (moving .travel .withdrawn 1000 1000)).unit 2).manifold = none ∧
    (after .weirClockTick (after .resetLineAsserted quiet)).clock = 0 := by decide

theorem test_clock : (after .weirClockTick { quiet with clock := 0xFFFFFFFF }).clock = 0 ∧
    (after (.setClock 1 9) quiet).clock = 9 := by decide

/-- The bytes of STATUS with request number 5 are answered by a reply that echoes the number. -/
theorem test_receive_status :
    (receiveAll (frameBytes 0x01 5 []) quiet).link.line.isSome = true ∧
      (receiveAll (frameBytes 0x01 5 []) quiet).link.rx = .waiting := by decide

theorem test_receive_badCrc :
    (receiveAll [0xA7, 0, 1, 5, 0, 0] quiet).link = { quiet.link with linkError := true } := by decide

theorem test_gap : (after .gapTimerExpiry (receiveAll [0xA7, 0] quiet)).link = { quiet.link with linkError := true } := by
  decide

theorem test_frameFinished : (after .frameFinished State.reset).link.line = none := by decide

theorem test_run : (after (.run 1) cfg).mode = .run ∧ (after (.run 1) quiet).mode = .config := by decide

theorem test_hold : (after (.hold 1) run).mode = .config ∧
    (after (.hold 1) (moving .travel .withdrawn 1000 1000)).flavour = some .hold := by decide

theorem test_stopAll :
    ((after (.stopAll 1) (moving .travel .withdrawn 1000 1000)).gate 0).state = .locking := by decide

theorem test_resetRequest : (after (.reset 1) (moving .travel .withdrawn 1000 1000)).mode = .resetting ∧
    (after (.reset 1) run).mode = .config := by decide

theorem test_setNotices : (after (.setNotices 1 [0, 1, 1, 1, 1, 1, 1, 1, 1, 1]) quiet).link.enables.get 0 = false := by decide

theorem test_configureGate : ((after (.configureGatePresent 1 2 gateFields) quiet).gate 2).state = .parked ∧
    ((after (.configureGateAbsent 1 0) cfg).gate 0).state = .absent := by decide

theorem test_configureUnit : ((after (.configureUnit 1 2 600) quiet).unit 2).idleTime = 600 ∧
    ((after (.configureUnit 1 2 601) quiet).unit 2).idleTime = 120 := by decide

theorem test_configureArbiter : (after (.configureArbiter 1 1) quiet).arbitration = .slotOrder := by decide

theorem test_configureTide : (after (.configureTide 1 { tideFields with turnBand := 50 }) quiet).tide.turnBand = 50 := by decide

theorem test_configureThreshold :
    ((after (.configureThreshold 1 thresholdFields) quiet).tide.thresholds.get 2).level = 1200 := by decide

theorem test_configureEnvelope :
    (after (.configureEnvelope 1 [-20, -10, -3, 0, 3, 10, 20] (List.replicate 48 500)) quiet).ceiling 0 = 500 := by decide

theorem test_configureQueue : ((after (.configureQueue 1 queueFields) quiet).queue 3).size = 8 := by decide

/-- An order for a PARKED gate is granted in its own event; the OFF unit starts. -/
theorem test_postOrder : ((after (.postOrder 1 3 orderFields) run).slot 3).state = .granted ∧
    ((after (.postOrder 1 3 orderFields) run).unit 0).state = .starting := by decide

theorem test_postOrder_armed : ((after (.postOrder 1 3 armedFields) run).slot 3).state = .armed := by decide

theorem test_withdraw : (after (.withdrawOrder 1 3) (granted .starting .start)).slot 3 = Slot.empty ∧
    ((after (.withdrawOrder 1 3) (granted .starting .start)).unit 2).slot = none := by decide

/-- A DONE slot with an unread report is locked by READ_SLOT and released by UNLOCK. -/
theorem test_readSlot :
    (after (.readSlot 1 3) (cfg.setSlot 3 { slotIn .done order0 with report := some (reportOf .reached) })).lock = some 3 := by
  decide

theorem test_unlock : (after (.unlock 1 3) { cfg with lock := some 3 }).lock = none := by decide

theorem test_stopGate : ((after (.stopGate 1 0) (moving .travel .withdrawn 1000 1000)).gate 0).move.outcome = some .stopped ∧
    ((after (.stopGate 1 0) (granted .starting .start)).slot 3).state = .done := by decide

theorem test_clearTrip : ((after (.clearTrip 1 0) (quiet.setGate 0 (gateAt .tripped 1000 1000))).gate 0).state = .parked ∧
    ((after (.clearTrip 1 0) (pins0 .between (quiet.setGate 0 (gateAt .tripped 1000 1000)))).gate 0).state = .tripped := by
  decide

theorem test_unitService : ((after (.setUnitServiceOut 1 2) quiet).unit 2).state = .outOfService ∧
    ((after (.setUnitServiceIn 1 2) (quiet.setUnit 2 (PowerUnit.cold.toOut .maintenance))).unit 2).state = .off := by decide

/-- The pushes of chapter 8: seven of eight cells filled, the last push gets one point in. -/
theorem test_push : ((after (.pushPoints 1 0 [⟨10, 10, 0⟩, ⟨20, 10, 0⟩, ⟨30, 10, 2⟩])
    (cfg.setQueue 0 (queueOf (List.replicate 7 ⟨5, 10, .plain⟩)))).queue 0).level = 8 := by decide

theorem test_flush : ((after (.flushPoints 1 0) (cfg.setQueue 0 (queueOf [⟨5, 10, .plain⟩]))).queue 0).level = 0 := by decide

theorem test_loadWindow : (after (.setLoadWindow 1 windowFields) quiet).stage.pointer = (2, 0) := by decide

/-- GATE_FIRST through a window of two gates: the third value goes to the next step. -/
theorem test_writeCells :
    let s := after (.writeCells 2 [100, 65535, 300]) (after .frameFinished (after (.setLoadWindow 1 windowFields) quiet))
    (s.stage.steps.get 2).cells.get 0 = some 100 ∧ (s.stage.steps.get 3).cells.get 0 = some 300 ∧ s.stage.pointer = (3, 1) := by
  decide

theorem test_stepDwell : ((after (.setStepDwell 1 2 3600) quiet).stage.steps.get 2).dwell = 3600 := by decide

theorem test_defineSequence : (after (.defineSequence 1 sequenceFields) quiet).definition = some sequence0 := by decide

theorem test_startSequence : ((after (.startSequence 1) defined).slot 4).owner = .sequence ∧
    (after (.startSequence 1) (fullWindow defined)).runner.state = .posting := by decide

theorem test_stopSequence : (after (.stopSequence 1) (stepping .pending)).runner = .idle ∧
    (after (.stopSequence 1) (stepping .pending)).slot 4 = Slot.empty := by decide

/-- Chapter 1: 3236 to 3301 mm is more than 50 mm, and the PARKED gate trips. -/
theorem test_sample_jump :
    ((after (.encoderSample 0 .a 33010 0 50) (quiet.setGate 0 (gateAt .parked 3236 3234))).gate 0).state = .tripped ∧
    ((after (.encoderSample 0 .a 32360 0 50) (quiet.setGate 0 (gateAt .parked 3234 3234))).gate 0).endL.held = some 3236 := by
  decide

/-- Chapter 2: at skew +41 the leading end L is CLOSED and R goes on at 2 mm/s. -/
theorem test_sample_trim :
    let r := (after (.encoderSample 0 .a 27320 0 50) (moving .travel .withdrawn 2730 2691)).gate 0
    r.endL.valve = .closed ∧ r.endR.valve = .raise 2 ∧ r.move.trimEnd = some .l := by decide

/-- Chapter 2: at L 2992, R 2988 the target 3000 is reached. -/
theorem test_sample_reach :
    ((after (.encoderSample 0 .a 29920 0 50) (moving .travel .withdrawn 2990 2988)).gate 0).state = .settling := by decide

theorem test_encoderSilence :
    ((after (.encoderSilenceExpiry 0 .l) (moving .travel .withdrawn 2990 2988)).gate 0).state = .tripped ∧
    ((after (.encoderSilenceExpiry 0 .l) (moving .travel .withdrawn 2990 2988)).slot 3).state = .done := by decide

theorem test_pins :
    ((after (.lockPinFeedback 0 .b .withdrawn)
      ((timed .releasing .release .withdrawn).setPinInput 0 ⟨.withdrawn, .between⟩)).gate 0).phase = some (.build, 300) ∧
    ((after (.lockPinFeedback 0 .a .between) (moving .travel .withdrawn 2990 2988)).gate 0).state = .tripped := by decide

theorem test_park :
    ((after (.lockPinFeedback 0 .b .engaged)
      ((timed .locking .lock .between).setPinInput 0 ⟨.engaged, .between⟩)).gate 0).state = .parked ∧
    ((after (.lockPinFeedback 0 .b .engaged)
      ((timed .locking .lock .between).setPinInput 0 ⟨.engaged, .between⟩)).unit 2).state = .idle := by decide

theorem test_phaseTimers :
    ((after (.releaseTimerExpiry 0) (timed .releasing .release .between)).gate 0).state = .tripped ∧
    ((after (.buildTimerExpiry 0) (timed .building .build .withdrawn)).gate 0).state = .tripped ∧
    ((after (.lockTimerExpiry 0) (timed .locking .lock .between)).gate 0).state = .tripped ∧
    ((after (.settleTimerExpiry 0) (timed .settling .settle .withdrawn)).gate 0).move.outcome = some .unsettled := by
  decide

theorem test_stallTimer :
    ((after (.stallTimerExpiry 0 .l) (after (.encoderSample 0 .a 10000 0 50) (moving .travel .withdrawn 1000 1000))).gate 0).state =
      .tripped := by decide

theorem test_tripLockTimer :
    (((after (.tripLockTimerExpiry 0) (after (.encoderSilenceExpiry 0 .l) (moving .travel .withdrawn 1000 1000))).gate 0).trip.map
      fun t => t.further) = some 0b0000010 := by decide

theorem test_holdTimer :
    ((after (.holdTimerExpiry 0) ((moving .held .withdrawn 1000 1000).modMove 0 fun m => { m with hold := some 30000 })).gate 0).state =
      .locking := by decide

theorem test_ready : ((after (.readyChange 2 true) (granted .starting .start)).unit 2).manifold = some 0 := by decide

theorem test_fault : ((after (.faultAssertion 2) (granted .liningUp .lineUp)).unit 2).state = .outOfService ∧
    ((after (.faultAssertion 2) (moving .travel .withdrawn 1000 1000)).gate 0).state = .tripped := by decide

theorem test_faultClearing : ((after (.faultClearing 2) (after (.faultAssertion 2) quiet)).unitInput 2).fault = false := by
  decide

theorem test_linedUp : ((after (.linedUpChange 2 true) (granted .liningUp .lineUp)).gate 0).phase = some (.release, 500) ∧
    ((after (.linedUpChange 2 true) (granted .liningUp .lineUp)).slot 3).state = .running := by decide

theorem test_unitTimers : ((after (.startTimerExpiry 2) (granted .starting .start)).unit 2).state = .outOfService ∧
    ((after (.lineUpTimerExpiry 2) (granted .liningUp .lineUp)).unit 2).cause = some .lineUp ∧
    ((after (.idleTimerExpiry 2) (quiet.setUnit 2 PowerUnit.cold.toIdle)).unit 2).state = .off := by decide

theorem test_gauge : (after (.gaugeSample .up 500) (after (.gaugeSample .down 220) quiet)).tide.head = some 280 ∧
    (after (.gaugeSample .up 500) (after (.gaugeSample .down 220) quiet)).envelope.band = some 4 := by decide

theorem test_gaugeSilence : (after (.gaugeSilenceExpiry .down) (after (.gaugeSample .down 220) quiet)).tide.down.state =
    .faulted := by decide

theorem test_postingAttempt :
    (after .postingAttempt { defined with runner := { runnerIn .posting with attemptsDue := 1 } }).runner.state = .step := by
  decide

theorem test_collection : (after (.runnerCollection 4) (stepping .done)).runner.state = .dwell ∧
    (after (.runnerCollection 4) (stepping .done)).slot 4 = Slot.empty := by decide

theorem test_dwell :
    ((after .dwellTimerExpiry { defined with runner := { runnerIn .dwell with dwell := some 5000 } }).slot 4).order.map (·.tag) =
      some 1 := by decide

theorem test_reads : ((after (.status 1) quiet).link.line.isSome, (after (.listSlots 1) quiet).link.line.isSome,
    (after (.readGate 1 0) quiet).link.line.isSome, (after (.readTide 1) quiet).link.line.isSome,
    (after (.peekPoints 1 0 0 1) quiet).link.line.isSome, (after (.readQueue 1 0) quiet).link.line.isSome,
    (after (.readCells 1 0) quiet).link.line.isSome) = (true, true, true, true, true, true, true) := by decide

/-- A step takes the front of the queue, and idles on an empty one. -/
theorem test_step : step { quiet with pending := [.weirClockTick, .gapTimerExpiry] } =
    .next { quiet with clock := 1, pending := [.gapTimerExpiry] } ∧ step quiet = .next quiet := by
  constructor <;> rfl

/-! ### States that meet the hypotheses of the statements

Each theorem takes the hypotheses of one statement, clause by clause, at a concrete state and operands. A clause that
starts "of" names the statement. -/

/-- The device listens and no mark is set. -/
def ready (s : State) : Bool := !s.resetHeld && decide (s.link.replies.length < 2) && decide (s.marks = ⟨false, false⟩)

/-- Such a state meets the two hypotheses that most statements share. -/
theorem ready_meets (s : State) (h : ready s = true) : Listening s ∧ MarksClear s := by
  simp only [ready, Bool.and_eq_true, decide_eq_true_eq, Bool.not_eq_true'] at h
  exact ⟨⟨h.1.1, h.1.2⟩, h.2⟩

theorem test_meets_ready : [quiet, cfg, run, moving .travel .withdrawn 1000 1000, granted .starting .start, defined,
    stepping .done, State.reset].all ready = true := by decide

/-- Of HeldResetIgnoresCommands and ResetLineHoldsDevice. -/
theorem test_meets_ResetLineHoldsDevice : (after .resetLineAsserted run).resetHeld = true := by decide

/-- Of ClockTicksAndIsSet, ReadsReplyAndKeepState and ConfigureSmallSettings. -/
theorem test_meets_modes : cfg.mode = .config ∧ cfg.mode ≠ .resetting ∧
    ((cfg.setQueue 0 (queueOf [])).queue 0).size ≠ 0 := by decide

/-- Of ReceiverBytesAndGap: a WAITING receiver, and open ones with no byte, with a length, and with a running gap timer. -/
theorem test_meets_ReceiverBytesAndGap : quiet.link.rx = .waiting ∧
    (receiveAll [0xA7] quiet).link.rx = .opened ∧ (receiveAll [0xA7] quiet).link.buffer = [] ∧
    ¬((receiveAll [0xA7] quiet).link.buffer = [] ∧ 250 < (250#8).toNat) ∧ 250 < (251#8).toNat ∧
    (receiveAll [0xA7] quiet).link.buffer.length + 1 ≠ frameSize ((receiveAll [0xA7] quiet).link.buffer ++ [250#8]) ∧
    (receiveAll [0xA7] quiet).link.gap.isSome = true := by decide

/-- Of FrameReceivedIsTaken, at both ends of the body's length. -/
theorem test_meets_FrameReceivedIsTaken : ([] : List Byte).length ≤ 250 ∧ (List.replicate 250 (0#8)).length ≤ 250 ∧
    quiet.link.rx = .waiting ∧ quiet.link.buffer = [] ∧ quiet.link.gap = none := by decide

/-- A link whose notice queue is full. -/
def fullQueue : State :=
  State.reset.setLink { State.reset.link with notices := List.replicate 16 (.mode .run none none .request 0) }

/-- Of NoticesAndTransmission, with 15 and 16 notices waiting. -/
theorem test_meets_NoticesAndTransmission :
    (after (.setNotices 1 [0, 1, 1, 1, 1, 1, 1, 1, 1, 0]) quiet).link.enables.get
        (Notice.mode .run none none .request 0).kindIndex = false ∧
    fullQueue.link.enables.get (Notice.mode .run none none .request 0).kindIndex = true ∧
    16 ≤ fullQueue.link.notices.length ∧ fullQueue.link.notices.tail.length < 16 ∧
    fullQueue.link.line.isSome = true ∧ quiet.link.notices = [] ∧ quiet.link.replies = [] ∧ quiet.link.line = none := by
  decide

/-- Two replies waiting behind the COLD_RESET notice. -/
def twoReplies : State := after (.listSlots 2) (after (.listSlots 1) State.reset)

/-- Of RequestsAreAdmittedByMode. -/
theorem test_meets_RequestsAreAdmittedByMode : 2 ≤ twoReplies.link.replies.length ∧ run.link.replies.length < 2 ∧
    run.mode = .run ∧ configOnly (.configureArbiter 0) = true ∧
    (after (.reset 1) (moving .travel .withdrawn 1000 1000)).mode = .resetting ∧
    (after (.reset 1) (moving .travel .withdrawn 1000 1000)).link.replies.length < 2 ∧
    Request.run ≠ Request.status := by decide

/-- Of RunEntersRun: CONFIG with a gate, and a HOLD drain; no slot PENDING; the starter's laws. -/
theorem test_meets_RunEntersRun : cfg.mode = .config ∧ cfg.anyPresent = true ∧
    (∀ k, (cfg.slot k).state ≠ .pending) ∧
    (after (.hold 1) (moving .travel .withdrawn 1000 1000)).mode = .draining ∧
    (after (.hold 1) (moving .travel .withdrawn 1000 1000)).flavour = some .hold ∧
    ready { moving .travel .withdrawn 1000 1000 with mode := .draining, flavour := some .hold } = true ∧
    cfg.startQueue = [] ∧
    (∀ u, (cfg.unit u).state = .off) := by decide

/-- Of HoldBeginsDrain and StopAllStopsEverything: in RUN, a GRANTED slot, a gate that moves and gates that do not. -/
theorem test_meets_drains : (granted .starting .start).mode = .run ∧
    ((granted .starting .start).slot 3).state = .granted ∧ ((granted .starting .start).slot 3).order.isSome = true ∧
    ((moving .travel .withdrawn 1000 1000).gate 0).state.moving = true ∧
    ((moving .travel .withdrawn 1000 1000).gate 1).state.moving = false ∧
    ((moving .travel .withdrawn 1000 1000).gate 0).kind ≠ some .stream ∧
    (((moving .travel .withdrawn 1000 1000).modMove 0 fun m =>
      { m with order := some ⟨.stream, .normal, .clamp⟩ }).gate 0).kind = some .stream := by decide

/-- Of WarmResetAtRestEnds. -/
theorem test_meets_WarmResetAtRestEnds : run.mode ≠ .resetting ∧ (∀ g, (run.gate g).state.moving = false) ∧
    (∀ k, (run.slot k).state ≠ .running) := by decide

/-- Of ConfigureGateWrites, at the ends of the ranges too: a present and an ABSENT gate, no order waiting for G0. -/
theorem test_meets_ConfigureGateWrites : firstBad (gateChecks gateFields) = none ∧
    firstBad (gateChecks { gateFields with openingMax := 12000, lScale := 10, rScale := 1000, deadband := 50, skewTrim := 200, skewTrip := 210, permitted := 1 }) = none ∧
    firstBad (gateChecks { gateFields with openingMax := 500, lZero := 16777215, deadband := 2, skewTrim := 10, skewTrip := 400 }) = none ∧
    (cfg.gate 0).state ≠ .absent ∧ (cfg.gate 1).state = .absent ∧ cfg.awaitsGate 0 = false := by decide

/-- Of ConfigureTideAndEnvelopeWrite. -/
theorem test_meets_ConfigureTideAndEnvelopeWrite : firstBad (tideChecks tideFields) = none ∧
    firstBad (tideChecks { tideFields with upLow := 14999, turnConfirm := 64, surgeRate := 10 }) = none ∧
    thresholdFields.index = (2 : ThrNo).val ∧ signalOf thresholdFields.signal = some .down ∧
    firstBad (thresholdChecks thresholdFields) = none ∧
    [-20000, -1000, -300, 0, 300, 1000, 20000].length = 7 ∧ (List.replicate 48 (8000 : Int)).length = 48 ∧
    firstBad (boundaryChecks 1 none [-20000, -1000, -300, 0, 300, 1000, 20000] ++
      cellChecks quiet.openingMaxOf 0 (List.replicate 48 8000)) = none := by decide

/-- Of ConfigureQueueWrites: a new partition on an empty queue, an unchanged one, and a changed one that holds points. -/
theorem test_meets_ConfigureQueueWrites : queueFields.gate = (3 : GateNo).val ∧
    limitDirOf queueFields.limitDir = some .rising ∧ firstBad (queueChecks queueFields) = none ∧
    firstBad (queueChecks { queueFields with base := 128, size := 128, limit := 128 }) = none ∧
    firstBad (queueChecks { queueFields with size := 0, limit := 0 }) = none ∧ (quiet.queue 3).points = [] ∧
    quiet.overlapsOther 3 64 8 = false ∧
    ¬(((cfg.setQueue 3 (queueOf [⟨5, 10, .plain⟩])).queue 3).base = 64 ∧
      ((cfg.setQueue 3 (queueOf [⟨5, 10, .plain⟩])).queue 3).size = 8) ∧
    ((cfg.setQueue 3 (queueOf [⟨5, 10, .plain⟩])).queue 3).points ≠ [] := by decide

/-- Of PostOrderWritesSlot: the fields with and without a trigger, for a slot in each state it covers. -/
theorem test_meets_PostOrderWritesSlot : firstBad (orderChecks 3 orderFields) = none ∧
    firstBad (orderChecks 23 armedFields) = none ∧ orderFields.gate = (0 : GateNo).val ∧ (cfg.gate 0).state ≠ .absent ∧
    ¬(orderFields.kind = 0 ∧ (cfg.gate 0).params.openingMax < orderFields.target) ∧
    ¬(orderFields.rule = 2 ∧ (cfg.gate 0).params.overrideAllowed = false) ∧ orderFields.triggerPresence = 0 ∧
    armedFields.triggerPresence = 1 ∧
    ([SlotState.armed, .pending, .done].all fun st =>
      ((cfg.setSlot 3 (slotIn st order0)).slot 3).state != .running && ((cfg.setSlot 3 (slotIn st order0)).slot 3).owner == .host)
      = true ∧ (cfg.slot 3).owner = .host := by decide

/-- Of WithdrawFreesSlot: a runner that waits for its window too. -/
theorem test_meets_WithdrawFreesSlot : (cfg.slot 3).state = .free ∧
    ((moving .travel .withdrawn 1000 1000).slot 3).state = .running ∧
    ((fullWindow { defined with runner := runnerIn .posting }).slot 4).state = .armed ∧
    ((fullWindow { defined with runner := runnerIn .posting }).slot 4).owner = .host ∧
    (fullWindow { defined with runner := runnerIn .posting }).awaited 4 = true ∧
    ((granted .starting .start).slot 3).state = .granted ∧ ((granted .starting .start).slot 3).owner = .host := by decide

/-- A locked ARMED slot O5 with a deferred trigger, in CONFIG. -/
def deferredLock : State :=
  { cfg.setSlot 5 { slotIn .armed (orderOf armedFields 0) with deferred := true } with lock := some 5 }

/-- Of ReadSlotReadsAndLocks and UnlockReleasesLock. -/
theorem test_meets_locks : cfg.lock = none ∧ deferredLock.lock = some 5 ∧ (5 : SlotNo) ≠ 3 ∧
    (deferredLock.slot 5).state = .armed ∧ (deferredLock.slot 5).deferred = true ∧ deferredLock.mode ≠ .run ∧
    ready deferredLock = true ∧ deferredLock.lock ≠ some 3 ∧
    ({ cfg.setSlot 3 (slotIn .done order0) with lock := some 3 }).lock = some 3 ∧
    ((cfg.setSlot 3 (slotIn .done order0)).slot 3).deferred = false ∧
    ({ deferredLock with mode := .run }).mode = .run := by decide

/-- Of SequenceStops. -/
theorem test_meets_SequenceStops : quiet.runner.state = .idle ∧ ({ defined with runner := runnerIn .windingDown }).runner.state = .windingDown ∧
    (runnerIn .posting).state = .posting ∧ (runnerIn .dwell).outstanding = [] ∧
    (stepping .pending).runner.state = .step ∧ (stepping .pending).runner.outstanding = [(4, 0)] ∧
    ((stepping .pending).slot 4).owner = .sequence ∧ ((stepping .pending).slot 4).state = .pending ∧
    (∀ e ∈ (stepping .running).runner.outstanding, ((stepping .running).slot e.1).state = .running) ∧
    ((stepping .done).slot 4).state = .done := by decide

/-- Of StopGateStops. -/
theorem test_meets_StopGateStops : ((moving .travel .withdrawn 1000 1000).gate 0).state ≠ .locking ∧
    (moving .travel .withdrawn 1000 1000).bothPins 0 .engaged = false ∧
    ((timed .locking .lock .between).gate 0).state = .locking ∧ (cfg.gate 1).state = .absent ∧
    (cfg.gate 0).state = .parked ∧ cfg.grantedFor 0 = none ∧
    ((granted .starting .start).gate 0).state = .parked ∧ (granted .starting .start).grantedFor 0 = some 3 ∧
    ((granted .starting .start).slot 3).order = some order0 := by decide

/-- Of ClearTripParks: pins ENGAGED and not, a trip with a SKEW cause and a skew of 101 mm. -/
theorem test_meets_ClearTripParks :
    let r : GateRec := { gateAt .tripped 1101 1000 with
      trip := some { first := .skew, further := 0, concerned := .l, time := 0 } }
    let s := quiet.setGate 0 r
    (s.gate 0).state = .tripped ∧ r.endL.status = .good ∧ r.endR.status = .good ∧ s.bothPins 0 .engaged = true ∧
      r.trip.isSome = true ∧ r.skew = some 101 ∧ (pins0 .between s).bothPins 0 .engaged = false ∧
      (cfg.gate 0).state ≠ .tripped ∧ (cfg.gate 0).state ≠ .absent ∧ (cfg.gate 1).state = .absent := by decide

/-- Of TripsLeaveGateTripped and TimerExpiriesEndMove. -/
theorem test_meets_timers : ((timed .releasing .release .between).gate 0).runs .release = true ∧
    ((timed .building .build .withdrawn).gate 0).runs .build = true ∧
    ((timed .locking .lock .between).gate 0).runs .lock = true ∧
    ((timed .settling .settle .withdrawn).gate 0).runs .settle = true ∧
    (timed .settling .settle .withdrawn).bothPins 0 .engaged = false ∧
    ((timed .tripped .lock .between).gate 0).state = .tripped ∧ (cfg.gate 0).phase = none ∧
    (let s := after (.encoderSample 0 .a 10000 0 50) (moving .travel .withdrawn 1000 1000)
     (s.gate 0).endL.stall.isSome = true ∧ (s.gate 0).endL.valve.driven = true ∧ (s.gate 0).state = .travel) ∧
    (((moving .held .withdrawn 1000 1000).modMove 0 fun m => { m with hold := some 30000 }).gate 0).move.hold.isSome = true := by
  decide

/-- Of PinFeedbackActs and LastPinParks: the input at BETWEEN and the new level, one end after the other. -/
theorem test_meets_pins : ((moving .travel .withdrawn 1000 1000).pinInput 0).level .a ≠ .between ∧
    ((moving .travel .withdrawn 1000 1000).pinInput 0).level .a = .withdrawn ∧
    (pins0 .between (timed .releasing .release .between)).bothPins 0 .withdrawn = false ∧
    ((timed .releasing .release .between).setPinInput 0 ⟨.withdrawn, .withdrawn⟩).bothPins 0 .withdrawn = true ∧
    ((timed .locking .lock .between).pinInput 0).level .b ≠ .engaged ∧
    (let s := (timed .locking .lock .between).setPinInput 0 ⟨.engaged, .between⟩
     (s.setPinInput 0 ((s.pinInput 0).put .b .engaged)).bothPins 0 .engaged = true ∧ (s.gate 0).state = .locking) ∧
    ((timed .tripped .lock .between).setPinInput 0 ⟨.engaged, .engaged⟩).bothPins 0 .engaged = true ∧
    ((moving .travel .withdrawn 1000 1000).slot 3).order = some order0 ∧ order0.rep = .once ∧
    ((moving .travel .withdrawn 1000 1000).unit 2).state = .assigned := by decide

/-- Of EncoderJudgesSamples: a jump of 50 and of 51 mm, 250 and 251 ms, each encoder status. -/
theorem test_meets_EncoderJudgesSamples :
    (goodEnd 1000).passes 1050 250 = true ∧ (goodEnd 1000).passes 1051 250 = false ∧
    (goodEnd 1000).passes 1050 251 = false ∧ (goodEnd 1000).consistent 950 250 = true ∧
    (goodEnd 1000).consistent 949 250 = false ∧ EndRec.cold.status = .unknown ∧ (cfg.gate 0).endL.silence.isSome = true ∧
    ({ goodEnd 1000 with status := .faulted } : EndRec).status = .faulted ∧ (cfg.gate 0).state ≠ .absent := by decide

/-- The tests of R7 and R9 in the statements are those of the model. -/
theorem passesTests_iff (h : EndRec) (x : Int) (elapsed : Nat) :
    passesTests h x elapsed ↔ h.status = .good ∧ h.passes x elapsed = true := by
  unfold passesTests EndRec.passes EndRec.inTime Config.encoderSilence
  cases h.held <;> simp [and_assoc]

theorem consistentWithLast_iff (h : EndRec) (x : Int) (elapsed : Nat) :
    consistentWithLast h x elapsed ↔ h.consistent x elapsed = true := by
  unfold consistentWithLast EndRec.consistent EndRec.inTime Config.encoderSilence
  cases h.reference <;> simp [and_assoc]

/-- Of TravelSampleDrives and SkewTrimHoldsLeadingEnd: no skew, skew +41, +20 with a trim end, +101, and a reached
target. -/
theorem test_meets_travel :
    let r := (moving .travel .withdrawn 2730 2691).gate 0
    r.move.order.isSome = true ∧ r.move.target = some 3000 ∧ (goodEnd 2730).passes 2732 50 = true ∧
    (accepts r .l 2732 0).opening = some 2711 ∧ (accepts r .l 2732 0).skew = some 41 ∧
    (accepts r .l 2732 0).travelTrip = none ∧ r.move.trimEnd = none ∧
    (accepts (gateAt .travel 1000 1000) .l 1001 0).skew = some 1 ∧
    (accepts { gateAt .travel 1020 1000 with move := { setMove with trimEnd := some .l } } .l 1020 0).travelTrip = none ∧
    (accepts { gateAt .travel 1100 1000 with move := setMove } .l 1101 0).skewTripped = true ∧
    (accepts { gateAt .travel 1100 1000 with move := setMove } .l 1101 0).endL.overtravel 8000 = false ∧
    mag (2990 - 3000) ≤ 10 := by decide

/-- Of SettlingCountsQuietSamples and BuildEndsInTravel. -/
theorem test_meets_settling :
    let r : GateRec := { gateAt .settling 2990 3010 with move := { setMove with quiet := 7 } }
    (accepts r .l 2990 0).isQuiet = true ∧ (accepts r .l 2989 0).isQuiet = false ∧
    (accepts r .l 2990 0).skewTripped = false ∧ r.params.quietCount ≤ r.move.quiet + 1 ∧
    (let b : GateRec := { gateAt .building 1000 1000 with
        endR := { goodEnd 1000 with fresh := true }, move := { setMove with target := none } }
     let b1 := (accepts b .l 1000 120).modEnd .l fun h => { h with fresh := true }
     (b1.endL.built 120 && b1.endR.built 120) = true ∧ b1.opening = some 1000 ∧
     limitedTarget .set .clamp 1000 (cfg.ceiling 0) 3000 = none ∧ b.move.trimEnd = none ∧
     (let c1 := (accepts b .l 1000 119).modEnd .l fun h => { h with fresh := true }
      (c1.endL.built 120 && c1.endR.built 120) = false)) := by decide

/-- Of GrantChoiceRule and RoundGrantsSoleOrder. -/
theorem test_meets_grants :
    let s := run.setUnit 1 PowerUnit.cold.toIdle
    (run.setSlot 3 (slotIn .pending order0)).winner = some 3 ∧ s.chooseUnit 0 = some 1 ∧
    (s.unit 1).state = .idle ∧ (∀ j, s.slot j = Slot.empty) ∧ s.lock = none ∧ s.mode = .run ∧
    (s.gate 0).state = .parked ∧ (s.gate 0).levelRequired = false := by decide

/-- Of ReadyEndsStart, LineUpStartsOrRefuses, UnitTimersExpire, UnitFaultActs and UnitServiceChanges. -/
theorem test_meets_units :
    let a := granted .starting .start
    let b := granted .liningUp .lineUp
    (a.unitInput 2).ready = false ∧ (a.unit 2).state = .starting ∧ a.startQueue = [] ∧ (a.unit 2).slot = some 3 ∧
    (a.unit 2).gate = some 0 ∧ (a.unit 2).runs .start = true ∧ (b.unit 2).runs .lineUp = true ∧
    (b.unitInput 2).lined = false ∧ (b.slot 3).state = .granted ∧ order0.kind = .set ∧ order0.target = some 3000 ∧
    (b.gate 0).opening = some 1000 ∧ limitedTarget .set order0.rule 1000 (b.ceiling 0) 3000 = none ∧
    b.bothPins 0 .withdrawn = false ∧
    (PowerUnit.cold.toIdle).runs .idle = true ∧ (quiet.unit 2).timer = none ∧ (quiet.unitInput 2).fault = false ∧
    ((moving .travel .withdrawn 1000 1000).unit 2).gate = some 0 ∧
    (PowerUnit.cold.toOut .maintenance).cause = some .maintenance := by decide

/-- Of GaugeRecordFollows, CeilingAndLimitRule and PopTakesOldestPoint. -/
theorem test_meets_rules : Gauge.down ≠ Gauge.up ∧ (quiet.tide.gauge .up).silence.isSome = true ∧
    ({ quiet.tide.up with silence := none } : GaugeRec).silence = none ∧
    (∀ i j : Fin 7, i < j → Envelope.cold.boundaries.get i < Envelope.cold.boundaries.get j) ∧
    quiet.envelope.band = none ∧ (after (.gaugeSample .up 500) (after (.gaugeSample .down 220) quiet)).envelope.band = some 4 ∧
    ((moving .travel .withdrawn 1000 1000).setQueue 0 (queueOf [⟨1300, 600, .mark⟩])).queue 0 = queueOf [⟨1300, 600, .mark⟩] ∧
    ((moving .travel .withdrawn 1000 1000).gate 0).opening = some 1000 ∧
    limitedTarget .stream .clamp 1000 ((moving .travel .withdrawn 1000 1000).ceiling 0) 1300 = none := by decide

/-- Of PoolRequestsWrite: a push of one and of sixteen points, a HELD gate with and without room. -/
theorem test_meets_PoolRequestsWrite : firstBad (pointChecks 0 [⟨0, 1, 0⟩]) = none ∧
    firstBad (pointChecks 0 (List.replicate 16 ⟨8000, 6000, 2⟩)) = none ∧
    (List.replicate 16 (⟨8000, 6000, 2⟩ : RawPoint)).length ≤ 16 ∧
    (∀ p ∈ List.replicate 16 (⟨8000, 6000, 2⟩ : RawPoint), p.target ≤ (cfg.gate 0).params.openingMax) ∧
    ((moving .held .withdrawn 1000 1000).gate 0).state = .held ∧ (queueOf []).size - (queueOf []).level ≠ 0 ∧
    (cfg.queue 0).size = 0 ∧ (cfg.setQueue 0 (queueOf [])).streamActive 0 = false ∧
    ((cfg.setQueue 0 (queueOf [])).setSlot 3 (slotIn .granted { order0 with kind := .stream })).streamActive 0 = true := by
  decide

/-- Of StageTableWrites: the pointer inside, at the end of a row, and at the last cell of the window. -/
theorem test_meets_StageTableWrites : advanceOf 0 = some .gateFirst ∧ advanceOf 1 = some .stepFirst ∧ (2 : StepNo) ≤ 3 ∧
    Stage.cold.pointer.2 ≠ Stage.cold.window.lastGate ∧
    ({ Stage.cold with pointer := (0, 5) } : Stage).pointer.2 = Stage.cold.window.lastGate ∧
    ({ Stage.cold with pointer := (15, 5) } : Stage).pointer = (Stage.cold.window.lastStep, Stage.cold.window.lastGate) ∧
    (∀ x ∈ [65535, 0, 12000], x = 65535 ∨ x ≤ 12000) ∧ (List.replicate 32 0).length ≤ 32 := by decide

/-- Of SequenceDefinedAndStarted: a window that is free, full and too small, and a cell whose gate is ABSENT. -/
theorem test_meets_SequenceDefinedAndStarted : speedOf 2 = some .fast ∧ ruleOf 2 = some .override ∧
    quiet.definition = none ∧ defined.definition = some sequence0 ∧ defined.runner.state = .idle ∧
    (stepping .done).runner.state ≠ .idle ∧ defined.stepCells 0 = [(0, 3000)] ∧
    (defined.stepCells 0).any (defined.cellFails sequence0) = false ∧
    (sequence0.window.filter fun k => (defined.slot k).state == .free).length = 4 ∧
    (sequence0.window.filter fun k => ((fullWindow defined).slot k).state == .free).length = 0 ∧
    ((defined.setStage { stage0 with
      steps := stage0.steps.set 0 { StageStep.cold with cells := Vector.replicate 6 (some 0) } }).stepCells 0).length = 6 ∧
    ((quiet.stepCells 0 = []) ∧ ([(1, 0)] : List (GateNo × Int)).any (defined.cellFails sequence0) = true) ∧
    defined.mode ≠ .run ∧ defined.lock = none := by decide

/-- Of RunnerCollects and RunnerPostsAndDwells. -/
theorem test_meets_runner : 4 ∈ (stepping .done).runner.offers ∧ 5 ∉ (stepping .done).runner.offers ∧
    ((stepping .done).slot 4).report = some (reportOf .reached) ∧ (stepping .done).lock ≠ some 4 ∧
    ((stepping .done).runner.outstanding.filter fun e => e.1 != 4) = [] ∧
    (([(4, 0), (5, 1)] : List (SlotNo × GateNo)).filter fun e => e.1 != 4) ≠ [] ∧
    ((stepping .done).stage.steps.get 0).dwell ≠ 0 ∧ (OrderOutcome.stopped ≠ .reached) ∧
    (runnerIn .posting).step = some 0 ∧ (runnerIn .posting).pass = some 1 ∧
    defined.freeFrom sequence0 4 = [4, 5, 6, 7] ∧ (fullWindow defined).freeFrom sequence0 4 = [] ∧
    (0 : StepNo) < sequence0.lastStep ∧ ¬ (1 : StepNo) < sequence0.lastStep ∧ ¬ 1 < sequence0.repetitions := by decide

/-- Of the invariants: the laws hold at reset, so each has a state to step from, and a step answers next. -/
theorem test_meets_invariants : LinkBounded State.reset ∧ QueuesFit State.reset ∧ HistoryBounded State.reset ∧
    FlavourLawful State.reset ∧ MarksClear State.reset ∧
    step { State.reset with pending := [.weirClockTick] } = .next { State.reset with clock := 1 } := by
  refine ⟨?_, ?_, ?_, ?_, ?_, rfl⟩
  · unfold LinkBounded; decide
  · unfold QueuesFit; decide
  · unfold HistoryBounded; decide
  · unfold FlavourLawful; decide
  · unfold MarksClear; decide

/-- Of the invariants: the order table, the units and the gates. -/
theorem test_meets_invariants_blocks : LockLawful State.reset ∧ FreeEmpty State.reset ∧ UnitsLawful State.reset ∧
    PartitionsApart State.reset ∧ RestingGatesClear State.reset ∧ (∀ g, (State.reset.gate g).state = .absent) ∧
    (∀ u, (State.reset.unit u).state = .off) ∧ State.reset.startQueue = [] := by
  refine ⟨?_, ?_, ?_, ?_, ?_, by decide, by decide, rfl⟩
  · unfold LockLawful; decide
  · unfold FreeEmpty; decide
  · unfold UnitsLawful; decide
  · unfold PartitionsApart; decide
  · unfold RestingGatesClear; decide

/-! ### States that meet the hypotheses of the widened statements -/

/-- `u`'s fault input ASSERTED. -/
def faulted (u : UnitNo) (s : State) : State := s.setUnitInput u ⟨false, true, false⟩

/-- P2 STARTING for O3 and G0, P1 START_QUEUED behind it for O5 and G1. -/
def queued : State :=
  { ((granted .starting .start).setSlot 5 { slotIn .granted { order0 with gate := 1 } with
      unit := some 1, grantTime := some 0 }).setUnit 1
      { PowerUnit.cold with state := .startQueued, slot := some 5, gate := some 1 } with startQueue := [1] }

/-- A lock held on a DONE slot O4 that is outstanding at the runner. -/
def lockedStep : State :=
  { stepping .done with lock := some 4, runner := { (stepping .done).runner with offers := [] } }

/-- The move above under a LEVEL order, L driven to 1000 mm from an entry skew of 150 mm. -/
def levelMove : Move :=
  { setMove with order := some ⟨.level, .slow, .clamp⟩, orderTarget := none, drivenEnd := some .l, target := some 1000,
                 entrySkew := some 150 }

/-- The move above under a STREAM order, no point popped yet. -/
def streamMove : Move := { setMove with order := some ⟨.stream, .slow, .clamp⟩, orderTarget := none, target := none }

/-- A gate in state `st` at `l` and `r` running move `m`. -/
def runs (st : GateState) (m : Move) (l r : Int) : GateRec := { gateAt st l r with move := m }

/-- Ceilings of 2000 mm in every band, the head in B3. -/
def lowCeilings (s : State) : State :=
  s.setEnvelope { Envelope.cold with cells := Vector.replicate 8 (Vector.replicate 6 2000), band := some 3 }

/-- Of ReceiverBytesAndGap: the last byte of a frame with a CRC that matches and one that does not. -/
theorem test_meets_ReceiverBytesAndGap_last :
    let s := receiveAll (frameBytes 0x01 5 []).dropLast quiet
    let b := (frameBytes 0x01 5 []).getLastD 0
    let whole := fun b : Byte => s.link.buffer ++ [b]
    let crc := crc16 ((whole b).take 3)
    s.link.rx = .opened ∧ s.link.buffer.length + 1 = frameSize (whole b) ∧
      (whole b).drop 3 = [crc.extractLsb' 8 8, crc.extractLsb' 0 8] ∧
      s.link.buffer.length + 1 = frameSize (whole (b + 1)) ∧
      (whole (b + 1)).drop 3 ≠ [crc.extractLsb' 8 8, crc.extractLsb' 0 8] := by decide

/-- Of FrameReceivedIsTaken: kinds that are no request, and lengths that a kind does not take. -/
theorem test_meets_FrameReceivedIsTaken_refused : (0x24#8).toNat > 0x23 ∧ (0#8).toNat = 0 ∧ ([5] : List Byte).length ≠ 0 ∧
    (([0, 1] : List Byte).length ≠ if ([0, 1] : List Byte).getD 1 0 = 0 then 2 else 33) ∧
    ([0, 0] : List Byte).length ≠ 2 + 5 * (([0, 1] : List Byte).getD 1 0).toNat ∧
    ([2, 0, 0] : List Byte).length ≠ 1 + 2 * (([2, 0, 0] : List Byte).getD 0 0).toNat ∧
    2 ≤ twoReplies.link.replies.length := by decide

/-- Of ReadsReplyAndKeepState: the ends of two signed bytes, a present gate and an ABSENT one. -/
theorem test_meets_ReadsReplyAndKeepState : (-32768 : Int) ≤ -1 ∧ encMm (-1) = [255, 255] ∧ encMm 32767 = [127, 255] ∧
    encMm (-32768) = [128, 0] ∧ (cfg.gate 0).state ≠ .absent ∧ (cfg.gate 1).state = .absent := by decide

/-- Of WarmResetAtRestEnds: a gate in TRAVEL with its pins WITHDRAWN, and then its last pin or its lock timer. -/
theorem test_meets_WarmResetAtRestEnds_moving :
    let s := moving .travel .withdrawn 1000 1000
    let t := (moving .locking .between 1000 1000).modMove 0 fun m => { m with resetMark := true }
    let t := { (t.setPinInput 0 ⟨.engaged, .between⟩).modGate 0 fun r => { r with phase := some (.lock, 500) } with
      mode := .resetting }
    (s.gate 0).state.moving = true ∧ s.bothPins 0 .engaged = false ∧
      (∀ g, (s.gate g).state.moving = true → (s.gate g).state ≠ .locking → s.bothPins g .engaged = false) ∧
      (t.gate 0).state = .locking ∧ (∀ h, h ≠ 0 → (t.gate h).state.moving = false) ∧ (t.gate 0).move.slot = some 3 ∧
      (t.gate 0).move.resetMark = true ∧ (t.slot 3).state = .running ∧ (∀ j, j ≠ 3 → (t.slot j).state ≠ .running) ∧
      (t.pinInput 0).level .b ≠ .engaged ∧
      (t.setPinInput 0 ((t.pinInput 0).put .b .engaged)).bothPins 0 .engaged = true ∧
      (t.gate 0).runs .lock = true := by decide

/-- Of ConfigureQueueWrites: Q0 holds cells 0 to 7, so a partition of Q3 from 7 on overlaps and one from 8 on does not. -/
theorem test_meets_ConfigureQueueWrites_overlap :
    let s := cfg.setQueue 0 (queueOf [])
    s.overlapsOther 3 7 8 = true ∧ s.overlapsOther 3 8 8 = false ∧ (s.queue 3).points = [] ∧
      firstBad (queueChecks { queueFields with base := 7 }) = none ∧
      (after (.configureQueue 7 { queueFields with base := 7 }) s).queue 3 = s.queue 3 := by decide

/-- Of PostOrderWritesSlot, WithdrawFreesSlot and StopGateStops: a grant with its unit in each state, no slot PENDING. -/
theorem test_meets_abandonment :
    ([granted .starting .start, granted .liningUp .lineUp, granted .startQueued .start].all fun s =>
      (s.slot 3).state == .granted && (s.slot 3).owner == .host && (s.slot 3).unit == some 2 &&
        allSlots.all fun k => (s.slot k).state != .pending) = true ∧
    (stepping .pending).runner.outstanding = [(4, 0)] ∧ armedFields.triggerPresence = 1 := by decide

/-- Of ReadSlotReadsAndLocks and UnlockReleasesLock: the lock on a DONE slot of the runner. -/
theorem test_meets_locks_runner : lockedStep.lock = some 4 ∧ (lockedStep.slot 4).state = .done ∧
    (lockedStep.slot 4).owner = .sequence ∧ lockedStep.runner.has 4 = true ∧
    ¬((lockedStep.slot 4).state = .armed ∧ (lockedStep.slot 4).deferred = true) ∧ ready lockedStep = true := by decide

/-- Of TripsLeaveGateTripped: a gate that runs an order, with and without the reset mark, and a PARKED one with a grant. -/
theorem test_meets_TripsLeaveGateTripped_order :
    let s := moving .travel .withdrawn 1000 1000
    (s.slot 3).order = some order0 ∧ (s.gate 0).state ≠ .parked ∧ (s.gate 0).move.slot = some 3 ∧
      (s.slot 3).state = .running ∧ (s.gate 0).move.resetMark = false ∧ (s.gate 0).move.unit = some 2 ∧
      (s.unit 2).state = .assigned ∧ ((s.modMove 0 fun m => { m with resetMark := true }).gate 0).move.resetMark = true ∧
      ((granted .liningUp .lineUp).gate 0).state = .parked ∧ (granted .liningUp .lineUp).grantedFor 0 = some 3 ∧
      ((granted .liningUp .lineUp).slot 3).unit = some 2 := by decide

/-- Of HoldBeginsDrain: a HELD gate with its pins WITHDRAWN. -/
theorem test_meets_HoldBeginsDrain_held :
    let s := (moving .held .withdrawn 1000 1000).setGate 0 (runs .held streamMove 1000 1000)
    (s.gate 0).kind = some .stream ∧ (s.gate 0).state = .held ∧ s.bothPins 0 .engaged = false ∧ s.mode = .run := by decide

/-- Of TravelSampleDrives: L beyond, R beyond and both, at the limits; a valve that drives with its end moved 2 mm. -/
theorem test_meets_TravelSampleDrives_limits :
    ((accepts (runs .travel setMove 8010 8000) .l 8021 0).endL.held = some 8021 ∧ (8000 : Int) + 20 < 8021) ∧
    ((accepts (runs .travel setMove 8010 8000) .l 8020 0).endL.overtravel 8000 = false) ∧
    ((accepts (runs .travel setMove (-20) (-21)) .l (-20) 0).endR.held = some (-21) ∧ (-21 : Int) < -20) ∧
    ((accepts (runs .travel setMove 8021 8021) .l 8021 0).endR.overtravel 8000 = true) ∧
    (Valve.raise 5).driven = true ∧ 2 ≤ mag (1002 - 1000) ∧
    (accepts (runs .travel setMove 1000 1000) .l 1002 0).travelTrip = none := by decide

/-- Of TravelSampleDrives and BuildEndsInTravel under LEVEL: a skew past 160 mm, a reach, a move short of it, an entry. -/
theorem test_meets_level :
    (accepts (runs .travel levelMove 1150 1000) .l 1161 0).skew = some 161 ∧ (150 : Int) + 10 < mag 161 ∧
    (accepts (runs .travel levelMove 1020 1000) .l 1010 0).travelTrip = none ∧ mag (1010 - 1000) ≤ (10 : Int) ∧
    (accepts (runs .travel levelMove 1020 1000) .l 1011 0).travelTrip = none ∧ (10 : Int) < mag (1011 - 1000) ∧
    (runs .building { streamMove with order := levelMove.order, entrySkew := some 150 } 1150 1000).travelTrip = none ∧
    levelMove.trimEnd = none := by decide

/-- Of BuildEndsInTravel and PopTakesOldestPoint under STREAM: with the cut mark, with and without points, a reach and a
move short of it. -/
theorem test_meets_stream :
    let r := runs .travel { streamMove with target := some 1300, tag := some .plain, rate := some 5 } 1290 1290
    r.kind = some .stream ∧ r.reached = true ∧ (runs .travel r.move 1000 1000).reached = false ∧ r.move.cut = false ∧
      r.move.final = false ∧ r.move.tag ≠ some .last ∧ (cfg.queue 0).points = [] ∧ (queueOf [⟨1300, 600, .last⟩]).points ≠ [] ∧
      (accepts r .l 1292 0).travelTrip = none ∧ mag (1291 - 1300) ≤ (10 : Int) ∧
      (accepts (runs .travel r.move 1000 1000) .l 1002 0).skew = some 2 ∧
      ((cfg.setGate 0 r).gate 0).envelopeChange ((cfg.setGate 0 r).ceiling 0) = none ∧
      (runs .travel r.move 9000 9000).travelTrip = some (.overtravel, 0, .both) := by decide

/-- Of GrantChoiceRule and RoundGrantsSoleOrder: no unit free; an OFF unit with and without a start under way, and with a
standing fault. -/
theorem test_meets_grants_off :
    let s := run.setUnit 1 { PowerUnit.cold with state := .starting }
    let x := faulted 0 (run.modGate 0 fun r => { r with params := { r.params with permitted := 0b001 } })
    run.chooseUnit 0 = some 0 ∧ (run.unit 0).state = .off ∧ (run.unitInput 0).fault = false ∧
      (∀ v, (run.unit v).state ≠ .starting) ∧ s.chooseUnit 0 = some 0 ∧ (s.unit 1).state = .starting ∧
      x.chooseUnit 0 = some 0 ∧ (x.unitInput 0).fault = true ∧ x.startQueue = [] ∧
      (∀ v, v ≠ 0 → (x.gate 0).params.permits v = false) ∧
      ((run.modGate 0 fun r => { r with params := { r.params with permitted := 0 } }).chooseUnit 0 = none) := by decide

/-- Of ReadyEndsStart, UnitTimersExpire and UnitFaultActs with a start queue. -/
theorem test_meets_starter : (queued.unit 2).state = .starting ∧ queued.startQueue = [1] ∧ (1 : UnitNo) ≠ 2 ∧
    (queued.unitInput 1).fault = false ∧ ((faulted 1 queued).unitInput 1).fault = true ∧ (queued.unit 2).slot = some 3 ∧
    (queued.unit 2).runs .start = true ∧ (queued.unit 1).state = .startQueued ∧ (queued.unitInput 2).ready = false ∧
    ready queued = true ∧ ((queued.modUnit 2 fun r => { r with slot := none, gate := none }).unit 2).slot = none := by decide

/-- Of GaugeRecordFollows and ThresholdRule: a gauge that leaves GOOD and one that is not GOOD; a full history; a head
sample that qualifies; levels of both gauges. -/
theorem test_meets_tide :
    let t := (after (.gaugeSample .up 500) (after (.gaugeSample .down 220) quiet)).tide
    t.up.state = .good ∧ t.down.state = .good ∧ t.up.level = some 500 ∧ t.down.level = some 220 ∧ t.head.isSome = true ∧
      quiet.tide.up.state ≠ .good ∧ quiet.tide.head = none ∧ (t.up.sample 15001).1.state ≠ .good ∧
      t.turnBand < 280 ∧ t.direction ≠ .ebb ∧ (1 : Nat) < t.turnConfirm ∧
      ((List.replicate 60 (0 : Int)) ++ [301]).length = 61 ∧ t.surge = false ∧ t.surgeRate < 301 - 0 ∧
      (300 : Int) ≤ t.surgeRate ∧ (149 : Int) < t.surgeRate.tdiv 2 ∧ t.surgeRate.tdiv 2 ≤ (150 : Int) := by decide

/-- Of CeilingAndLimitRule: a fall that limits the one moving gate, and a target limited in TRAVEL, SETTLING and HELD. -/
theorem test_meets_falls :
    let s := moving .travel .withdrawn 1000 1000
    let s' := lowCeilings s
    (allGates.filter fun g => decide (s'.ceiling g < s.ceiling g) && (s'.fallChange g).isSome) = [0] ∧
      (allGates.filter fun g => decide ((lowCeilings cfg).ceiling g < cfg.ceiling g) && ((lowCeilings cfg).fallChange g).isSome) = [] ∧
      (s'.gate 0).opening = some 1000 ∧ (s'.gate 0).move.target = some 3000 ∧
      limitedTarget .set .clamp 1000 (s'.ceiling 0) 3000 = some 2000 ∧
      limitedTarget .set .refuse 1000 (s'.ceiling 0) 3000 = some 1000 ∧
      limitedTarget .set .clamp 1000 (s.ceiling 0) 3000 = none ∧ (10 : Int) < mag (1000 - 2000) ∧
      mag (1000 - 1000) ≤ (10 : Int) := by decide

/-- Of RunnerCollects: WINDING_DOWN with another slot outstanding. -/
theorem test_meets_RunnerCollects_winding :
    let r := { runnerIn .windingDown with outstanding := [(4, 0), (5, 1)], offers := [4] }
    r.state = .windingDown ∧ 4 ∈ r.offers ∧ (r.outstanding.filter fun e => e.1 != 4) = [(5, 1)] := by decide

/-- Of FrameReceivedIsTaken: POST_ORDER bodies of a wrong length with each presence byte 0 and 1. -/
theorem test_meets_FrameReceivedIsTaken_order :
    let lacking := fun body : List Byte =>
      decide (body.length ≠ (if body.getD 3 0 = 0 then 7 else 9)
        + (if body.getD (if body.getD 3 0 = 0 then 7 else 9) 0 = 0 then 4 else 6))
    lacking [] = true ∧ lacking (List.replicate 10 0) = true ∧ lacking (List.replicate 11 0) = false ∧
      lacking (List.replicate 14 1) = true ∧ lacking (List.replicate 15 1) = false := by decide

/-- Of NoticesAndTransmission: a reply placed on a busy line, on an idle one with and without waiting replies, and behind a
notice on the line. -/
theorem test_meets_NoticesAndTransmission_replies :
    let m : Notice := .mode .run none none .request 0
    let r := okReply 7 0x05 [0, 0]
    let busy := quiet.setLink { quiet.link with line := some (.notice m) }
    let waiting := quiet.setLink { quiet.link with replies := [r] }
    busy.link.line.isSome = true ∧ busy.link.line = some (.notice m) ∧ quiet.link.line = none ∧ quiet.link.replies = [] ∧
      waiting.link.line = none ∧ waiting.link.replies = r :: [] ∧ quiet.link.line ≠ some (.notice m) := by decide

/-- Of StopAllStopsEverything: a moving gate with its pins ENGAGED, a gate in LOCKING, a HOLD drain, a runner that waits in
RUN, and CONFIG with the runner in each state. -/
theorem test_meets_StopAllStopsEverything_modes :
    let a := moving .travel .engaged 1000 1000
    let b := moving .locking .between 1000 1000
    let d : State := { moving .travel .withdrawn 1000 1000 with mode := .draining, flavour := some .hold }
    let c := stepping .pending
    ready a = true ∧ a.mode = .run ∧ (a.gate 0).state.moving = true ∧ (a.gate 0).state ≠ .locking ∧
      a.bothPins 0 .engaged = true ∧ (b.gate 0).state = .locking ∧ ready d = true ∧ d.mode = .draining ∧
      d.bothPins 0 .engaged = false ∧ (a.gate 1).state.moving = false ∧ (run.setRunner (runnerIn .posting)).mode = .run ∧
      (runnerIn .dwell).outstanding = [] ∧ ready c = true ∧ c.mode = .config ∧ c.flavour = none ∧
      c.runner.state = .step ∧ c.runner.outstanding = [(4, 0)] ∧ (c.slot 4).owner = .sequence ∧
      (c.slot 4).state = .pending ∧ quiet.runner.state = .idle ∧ (runnerIn .windingDown).state = .windingDown := by decide

/-- Of StopAllStopsEverything: what it leaves there; a parked gate reports the pending outcome STOPPED. -/
theorem test_stop_all_modes :
    let a := after (.stopAll 7) (moving .travel .engaged 1000 1000)
    let d := after (.stopAll 7) { moving .travel .withdrawn 1000 1000 with mode := .draining, flavour := some .hold }
    (a.gate 0).state = .parked ∧ a.mode = .config ∧ (d.gate 0).state = .locking ∧ d.flavour = some .stop ∧
      (d.gate 0).move.outcome = some .stopped ∧ after (.stopAll 7) quiet = quiet.placeReply (okReply 7 0x05 [0, 0]) ∧
      (after (.stopAll 7) (stepping .pending)).runner = .idle := by decide

/-- G0 in LOCKING with one pin ENGAGED and outcome REACHED, its slot O3 RUNNING the order `w`, O9 PENDING for G0. -/
def lastPin (w : Order) : State :=
  let s := ((moving .locking .between 1000 1000).setPinInput 0 ⟨.engaged, .between⟩).modMove 0 fun m =>
    { m with outcome := some .reached }
  (s.modSlot 3 fun r => { r with order := some w }).setSlot 9 (slotIn .pending { order0 with gate := 0 })

/-- `order0` as a REARM order. -/
def rearmed : Order := { order0 with rep := .rearm, trigger := some ⟨none, none⟩ }

/-- Of LastPinParks: the last pin, a ONCE and a REARM order, another RUNNING slot and none, an ASSIGNED unit in RUN. -/
theorem test_meets_LastPinParks_run :
    let s := lastPin rearmed
    ready s = true ∧ s.mode = .run ∧ (s.gate 0).state = .locking ∧ (s.pinInput 0).level .b ≠ .engaged ∧
      (s.setPinInput 0 ((s.pinInput 0).put .b .engaged)).bothPins 0 .engaged = true ∧ (s.gate 0).move.slot = some 3 ∧
      (s.gate 0).move.resetMark = false ∧ (s.gate 0).move.outcome = some .reached ∧ (s.slot 3).state = .running ∧
      (s.slot 3).order = some rearmed ∧ ((lastPin order0).slot 3).order = some order0 ∧
      (∀ j, j ≠ 3 → (s.slot j).state ≠ .running) ∧
      ((s.setSlot 9 (slotIn .running order0)).slot 9).state = .running ∧ (s.unit 2).state = .assigned := by decide

/-- Of LastPinParks: the round that the release opens grants O9, and a REARM order is ARMED again. -/
theorem test_last_pin_round :
    let t := after (.lockPinFeedback 0 .b .engaged) (lastPin rearmed)
    (t.slot 3).state = .armed ∧ (t.slot 9).state = .granted ∧ (t.gate 0).state = .parked ∧
      ((after (.lockPinFeedback 0 .b .engaged) (lastPin order0)).slot 3).state = .done := by decide

/-- O3 GRANTED in RUN, P2 LINING_UP for G0, every ceiling at 2000 mm, the order of O3 replaced by `w`. -/
def limitedLineUp (w : Order) : State :=
  let b := granted .liningUp .lineUp
  (b.setEnvelope { b.envelope with cells := Vector.replicate 8 (Vector.replicate 6 2000) }).modSlot 3 fun r =>
    { r with order := some w }

/-- Of LineUpStartsOrRefuses in RUN: REFUSE under a lower ceiling, a target the envelope reduces, a STREAM order, and a
change that brings no line-up about. -/
theorem test_meets_LineUpStartsOrRefuses_run :
    let s := limitedLineUp { order0 with rule := .refuse }
    ready s = true ∧ s.mode = .run ∧ (s.unitInput 2).lined = false ∧ (s.unit 2).state = .liningUp ∧
      (s.unit 2).slot = some 3 ∧ (s.unit 2).gate = some 0 ∧ (s.slot 3).state = .granted ∧
      (s.slot 3).order = some { order0 with rule := .refuse } ∧ order0.gate = 0 ∧ order0.kind = .set ∧
      order0.target = some 3000 ∧ (s.gate 0).opening = some 1000 ∧ s.ceiling 0 < 3000 ∧
      order0.rule = .clamp ∧ limitedTarget .set .clamp 1000 (s.ceiling 0) 3000 = some 2000 ∧
      s.bothPins 0 .withdrawn = false ∧
      ((limitedLineUp { order0 with kind := .stream, target := none }).slot 3).order
        = some { order0 with kind := .stream, target := none } ∧
      (quiet.unitInput 2).lined ≠ true ∧ (quiet.unit 2).state ≠ .liningUp := by decide

/-- Of LineUpStartsOrRefuses: ENVELOPE without a move, and the clamped move to the ceiling. -/
theorem test_line_up_limited :
    let t := after (.linedUpChange 2 true) (limitedLineUp { order0 with rule := .refuse })
    let c := after (.linedUpChange 2 true) (limitedLineUp order0)
    (t.slot 3).state = .done ∧ (t.slot 3).report.map (·.outcome) = some .envelope ∧ (t.unit 2).state = .idle ∧
      (t.gate 0).state = .parked ∧ (c.gate 0).move.orderTarget = some 2000 ∧ (c.gate 0).move.clamped = true := by decide

/-- Of SettlingCountsQuietSamples: a skew past the limit in SETTLING and in HELD, at either end, one within it in HELD, and
one past the limit of a LEVEL order. -/
theorem test_meets_settling_skew :
    let r := gateAt .settling 1100 1000
    let m := levelMove
    passesTests r.endL 1101 0 ∧ (accepts r .l 1101 0).skew = some 101 ∧
      (accepts (gateAt .held 1000 1100) .l 999 0).skew = some (-101) ∧
      r.params.skewTrip < mag 101 ∧ mag 100 ≤ r.params.skewTrip ∧ (accepts (gateAt .held 1100 1001) .l 1101 0).skew = some 100 ∧
      setMove.order.map (·.kind) = some .set ∧ streamMove.order.map (·.kind) = some .stream ∧
      m.order.map (·.kind) = some .level ∧ m.entrySkew = some 150 ∧ m.drivenEnd = some .l ∧
      (accepts (runs .settling m 1160 1000) .l 1161 0).skew = some 161 ∧ (150 : Int) + r.params.deadband < mag 161 := by
  refine ⟨⟨rfl, rfl, by decide, 1100, rfl, by decide⟩, ?_⟩
  decide

/-- Of SettlingCountsQuietSamples: a skew past the limit trips the gate in SETTLING and in HELD, at the last quiet sample
too (log 31). -/
theorem test_settling_held_skew :
    let at1101 := fun s : State => (after (.encoderSample 0 .a 11010 0 50) s).gate 0
    let wide := (moving .settling .withdrawn 1100 1010).modGate 0 fun r =>
      { r with params := { r.params with deadband := 50, skewTrip := 90 },
               move := { r.move with target := some 1055, quiet := 7 } }
    (at1101 (moving .settling .withdrawn 1100 1000)).state = .tripped ∧
      (at1101 (moving .held .withdrawn 1100 1000)).state = .tripped ∧
      (at1101 (moving .held .withdrawn 1100 1001)).state = .held ∧ (at1101 wide).state = .tripped ∧
      (accepts (wide.gate 0) .l 1101 0).isQuiet = true ∧ (wide.gate 0).params.quietCount = 8 := by decide

/-- Of UnitFaultActs: the clearing of an ASSERTED input, of a unit in service and of one OUT_OF_SERVICE. -/
theorem test_meets_faultClearing :
    ((faulted 2 quiet).unitInput 2).fault = true ∧
      after (.faultClearing 2) (faulted 2 quiet) = (faulted 2 quiet).setUnitInput 2 ⟨false, false, false⟩ ∧
      ((after (.faultAssertion 2) quiet).unit 2).state = .off ∧
      ((after (.faultClearing 2) (after (.faultAssertion 2) (granted .liningUp .lineUp))).unit 2).state = .outOfService := by
  decide

end Sys2Proof.Tests
end

section
/-! Gate records through every command. A law of gate records that the operations of motion keep (`GateLaw`), and that the
requests which write a whole record keep too, is kept by every command but the assertion of the reset line; the outputs
of chapter 2 are such a law. -/

namespace Sys2Proof.Machine

open Sys2Proof.Safety

/-! ### Requests -/

/-- A law of gate records that is kept, beside the operations of motion, by the requests that write a whole record:
CONFIGURE_GATE (R12, R13) and CLEAR_TRIP (R37), and that the records of cold reset obey (R14). -/
structure RecordLaw (P O : GateRec → Prop) : Prop extends GateLaw P O where
  cold : ∀ p : GateParams, P { GateRec.cold with params := p }
  configured : ∀ (r : GateRec) (p : GateParams), P r → P (r.configured p)
  cleared : ∀ r : GateRec, P r → r.state = .tripped → P r.cleared

section

variable {P O : GateRec → Prop} {s : State}

theorem GatesObey.modGate (ok : GatesObey P s) (g : GateNo) (f : GateRec → GateRec) (h : P (f (s.gate g))) :
    GatesObey P (s.modGate g f) :=
  ok.touch (State.touch_modGate (m := Eq g) s rfl f) (by rw [State.modGate, State.gate_setGate_self]; exact h)

theorem GatesObey.checked (ok : GatesObey P s) (l : List (Nat × Bool)) {f : Answer × State} (h : GatesObey P f.2) :
    GatesObey P (s.checked l f).2 := by
  unfold State.checked
  split
  · exact ok
  · exact h

theorem GatesObey.named {α : Type} (ok : GatesObey P s) (x : Option α) {f : α → Answer × State}
    (h : ∀ a, GatesObey P (f a).2) : GatesObey P (s.named x f).2 := by
  unfold State.named
  split
  · exact h _
  · exact ok

theorem GatesObey.taken (ok : GatesObey P s) : GatesObey P s.taken.2 := ok.finish

theorem GatesObey.withMode (ok : GatesObey P s) (st : Status) : GatesObey P (State.withMode st s).2 := ok

theorem GatesObey.toRun (ok : GatesObey P s) : GatesObey P s.toRun := ok

theorem GatesObey.serveRun (ok : GatesObey P s) : GatesObey P s.serveRun.2 := by
  unfold State.serveRun
  split
  · split
    · exact ok.toRun.finish.withMode _
    · exact ok.withMode _
  · exact ok.withMode _
  · exact ok.withMode _
  · exact ok.toRun.finish.withMode _
  · exact ok.withMode _

theorem GatesObey.serveHold (law : GateLaw P O) (ok : GatesObey P s) : GatesObey P s.serveHold.2 := by
  unfold State.serveHold
  split
  · exact (ok.beginHold law).finish.withMode _
  · exact ok.withMode _
  · exact ok.withMode _

theorem GatesObey.serveStopAll (law : GateLaw P O) (ok : GatesObey P s) : GatesObey P s.serveStopAll.2 := by
  unfold State.serveStopAll
  split
  · exact (ok.beginStop law).finish.withMode _
  · exact (ok.giveStops law).finish.withMode _
  · exact (ok.beginStop law).finish.withMode _
  · exact (ok.away (State.touch_stopRunner _)).finish.withMode _
  · exact ok.withMode _

theorem GatesObey.serveGatePresent (law : RecordLaw P O) (ok : GatesObey P s) (g p : Nat) (f : RawGate) :
    GatesObey P (s.serveGatePresent g p f).2 :=
  ok.checked _ <| ok.named _ fun g => ok.checked _ (ok.modGate g _ (law.configured _ _ (ok g))).taken

theorem GatesObey.serveGateAbsent (law : RecordLaw P O) (ok : GatesObey P s) (g : Nat) :
    GatesObey P (s.serveGateAbsent g).2 := by
  refine ok.named _ fun g => ?_
  split
  · exact ok.taken
  · split
    · exact ok
    · exact (ok.modGate g _ (law.cold _)).taken

theorem GatesObey.serveStopGate (law : GateLaw P O) (ok : GatesObey P s) (g : Nat) :
    GatesObey P (s.serveStopGate g).2 := by
  refine ok.named _ fun g => ?_
  simp only
  split
  · exact ok
  · exact ok
  · exact ok
  · exact (ok.away (State.touch_completeGranted _ _ _ _ _ _)).taken
  · exact (ok.stopMove law g).taken

theorem GatesObey.serveClearTrip (law : RecordLaw P O) (ok : GatesObey P s) (g : Nat) :
    GatesObey P (s.serveClearTrip g).2 := by
  refine ok.named _ fun g => ?_
  simp only
  split
  · exact ok
  · next st =>
    split
    · have clear : GatesObey P (s.modGate g GateRec.cleared) := ok.modGate g _ (law.cleared _ (ok g) st)
      exact GatesObey.taken clear
    · exact ok
  · exact ok

theorem GatesObey.interfereIf (ok : GatesObey P s) (old : Slot) (k : SlotNo) : GatesObey P (s.interfereIf old k) := by
  unfold State.interfereIf
  split
  · exact ok.away (State.touch_interfere _ _)
  · exact ok

theorem GatesObey.servePostOrder (ok : GatesObey P s) (k : Nat) (f : RawOrder) : GatesObey P (s.servePostOrder k f).2 := by
  refine ok.checked _ <| ok.named _ fun k => ok.named _ fun g => ?_
  have posted : GatesObey P (s.postOrder k (orderOf f g)) :=
    (ok.away ((State.touch_writeOrder _ _ _ _).trans (State.touch_handBackOf _ _))).interfereIf _ _
  simp only
  split
  · exact ok
  · split
    · exact ok
    · split
      · exact ok
      · split
        · exact ok
        · exact posted.taken

theorem GatesObey.serveWithdraw (ok : GatesObey P s) (k : Nat) : GatesObey P (s.serveWithdraw k).2 := by
  refine ok.named _ fun k => ?_
  have withdrawn : GatesObey P (s.withdrawOrder k) :=
    (ok.away ((State.touch_freeSlot _ _).trans (State.touch_handBackOf _ _))).interfereIf _ _
  split
  · exact ok.taken
  · exact ok
  · exact withdrawn.taken

theorem GatesObey.takeLock (ok : GatesObey P s) (k : SlotNo) : GatesObey P (s.takeLock k) := by
  unfold State.takeLock
  simp only
  split
  · exact ok
  · exact ok

theorem GatesObey.serveReadSlot (ok : GatesObey P s) (k : Nat) : GatesObey P (s.serveReadSlot k).2 :=
  ok.named _ fun k =>
    have locked : GatesObey P ((s.releaseOther k).takeLock k) := (ok.away (State.touch_releaseOther _ _)).takeLock k
    GatesObey.finish (s := ((s.releaseOther k).takeLock k).modSlot k Slot.markRead) locked

theorem GatesObey.serveUnlock (ok : GatesObey P s) (k : Nat) : GatesObey P (s.serveUnlock k).2 := by
  refine ok.named _ fun k => ?_
  split
  · exact (ok.away (State.touch_releaseLock _ _)).taken
  · exact ok.taken

theorem GatesObey.serveService (ok : GatesObey P s) (u v : Nat) : GatesObey P (s.serveService u v).2 := by
  refine ok.named _ fun u => ?_
  split
  · unfold State.serveServiceOut
    split
    · exact (ok.away (State.touch_takeOut _ _ _)).taken
    · exact (ok.away (State.touch_takeOut _ _ _)).taken
    · exact ok.taken
    · exact ok
  · unfold State.serveServiceIn
    have returned : GatesObey P (s.returnUnit u) := ok
    split
    · split
      · exact ok
      · exact returned.taken
    · exact ok.taken
  · exact ok

theorem GatesObey.push (law : GateLaw P O) (ok : GatesObey P s) (g : GateNo) (l : List Point) :
    GatesObey P (s.push g l) := by
  unfold State.push
  simp only
  generalize ht : (if (s.queue g).rises ((s.queue g).appended l).level = true then _ else _ : State) = t
  have ok' : GatesObey P t := by
    rw [← ht]
    split
    · exact ok
    · exact ok
  split
  · next h => exact ok'.enterTravel law g (.inr h.1)
  · exact ok'

theorem GatesObey.servePush (law : GateLaw P O) (ok : GatesObey P s) (g : Nat) (l : List RawPoint) :
    GatesObey P (s.servePush g l).2 := by
  refine ok.checked _ <| ok.named _ fun g => ?_
  split
  · exact ok
  · split
    · exact ok
    · exact ok.checked _ (ok.push law g _).finish

theorem GatesObey.servePeek (ok : GatesObey P s) (g p n : Nat) : GatesObey P (s.servePeek g p n).2 := by
  refine ok.checked _ <| ok.named _ fun g => ?_
  simp only
  split
  · exact ok
  · exact ok

theorem GatesObey.serveQueue (ok : GatesObey P s) (f : RawQueue) : GatesObey P (s.serveQueue f).2 := by
  refine ok.checked _ <| ok.named _ fun g => ?_
  simp only
  split
  · exact ok
  · split
    · exact ok
    · exact GatesObey.taken (s := s.setQueue g ((s.queue g).configured f)) ok

theorem GatesObey.serveFlush (ok : GatesObey P s) (g : Nat) : GatesObey P (s.serveFlush g).2 := by
  refine ok.named _ fun g => ?_
  split
  · exact ok
  · split
    · exact ok
    · exact GatesObey.taken (s := s.setQueue g (s.queue g).emptied) ok

theorem GatesObey.serveLoadWindow (ok : GatesObey P s) (f : RawWindow) : GatesObey P (s.serveLoadWindow f).2 := by
  refine ok.checked _ ?_
  split
  · exact GatesObey.taken (s := s.setStage _) ok
  · exact ok

theorem GatesObey.serveDefine (ok : GatesObey P s) (f : RawSequence) : GatesObey P (s.serveDefine f).2 := by
  refine ok.checked _ ?_
  split
  · exact ok
  · split
    · next a b c d _ _ _ _ => exact GatesObey.taken (s := { s with definition := some _ }) ok
    · exact ok

theorem GatesObey.serveStart (ok : GatesObey P s) : GatesObey P s.serveStart.2 := by
  unfold State.serveStart
  split
  · exact ok
  · split
    · exact (ok.away (State.touch_startSequence _ _)).taken
    · exact ok

theorem GatesObey.serveStop (ok : GatesObey P s) : GatesObey P s.serveStop.2 := by
  unfold State.serveStop
  split
  · exact ok
  · exact (ok.away (State.touch_stopRunner _)).taken

/-- Every request of a known kind (R208). -/
theorem GatesObey.serve (law : RecordLaw P O) (ok : GatesObey P s) (r : Request) : GatesObey P (s.serve r).2 := by
  cases r with
  | status | setClock | listSlots | readTide => exact ok
  | run => exact ok.serveRun
  | hold => exact ok.serveHold law.toGateLaw
  | stopAll => exact ok.serveStopAll law.toGateLaw
  | reset => exact ok.taken
  | setNotices l => exact ok.checked _ ok
  | configureGate g p f =>
    unfold State.serve
    simp only
    split
    · exact ok.serveGateAbsent law g
    · exact ok.serveGatePresent law g p f
  | configureUnit u t =>
    exact ok.named _ fun u => ok.checked _ (GatesObey.taken (s := s.modUnit u fun r => { r with idleTime := t }) ok)
  | configureArbiter m => exact ok.named _ fun _ => ok
  | configureTide f => exact ok.checked _ (GatesObey.taken (s := s.setTide (s.tide.configured f)) ok)
  | configureThreshold f => exact ok.checked _ <| ok.named _ fun i => GatesObey.taken (s := s.setTide _) ok
  | configureEnvelope b c => exact ok.checked _ (GatesObey.taken (s := s.setEnvelope _) ok)
  | configureQueue f => exact ok.serveQueue f
  | postOrder k f => exact ok.servePostOrder k f
  | withdrawOrder k => exact ok.serveWithdraw k
  | readSlot k => exact ok.serveReadSlot k
  | unlock k => exact ok.serveUnlock k
  | readGate | readQueue | readCells => exact ok.named _ fun _ => ok
  | stopGate g => exact ok.serveStopGate law.toGateLaw g
  | clearTrip g => exact ok.serveClearTrip law g
  | setUnitService u v => exact ok.serveService u v
  | pushPoints g l => exact ok.servePush law.toGateLaw g l
  | peekPoints g p n => exact ok.servePeek g p n
  | flushPoints g => exact ok.serveFlush g
  | setLoadWindow f => exact ok.serveLoadWindow f
  | writeCells l => exact ok.checked _ ok
  | setStepDwell i d =>
    exact ok.named _ fun i => ok.checked _ (GatesObey.taken (s := s.setStage _) ok)
  | defineSequence f => exact ok.serveDefine f
  | startSequence => exact ok.serveStart
  | stopSequence => exact ok.serveStop

/-! ### The link port -/

theorem GatesObey.reply (ok : GatesObey P s) (idle : Bool) (r : Reply) : GatesObey P (s.reply idle r) := by
  unfold State.reply
  split
  · exact ok
  · exact ok

theorem GatesObey.markReport (ok : GatesObey P s) (b : Bool) : GatesObey P (s.markReport b) := ok

theorem GatesObey.warmReset (law : GateLaw P O) (ok : GatesObey P s) (r : Reply) : GatesObey P (s.warmReset r) := by
  have begun : GatesObey P
      (((s.setLink { s.link with replies := [], notices := [] }).placeReply r).changeMode .resetting none .request) := ok
  exact ((begun.resetBlocks law).resetEndTest.markReport false).away (State.touch_takeRound _)

theorem GatesObey.modeRefusal (ok : GatesObey P s) (r : Request) (st : Status) :
    GatesObey P (s.modeRefusal r st).2 := by
  unfold State.modeRefusal
  split
  · exact ok
  · exact ok
  · exact ok
  · exact ok

theorem GatesObey.takeKnown (law : RecordLaw P O) (ok : GatesObey P s) (n : Byte) (r : Request) :
    GatesObey P (s.takeKnown n r) := by
  unfold State.takeKnown
  simp only
  split
  · exact (ok.modeRefusal r _).reply _ _
  · split
    · exact ok.warmReset law.toGateLaw _
    · exact (ok.serve law r).reply _ _

theorem GatesObey.whenRoom (ok : GatesObey P s) {f : State} (h : GatesObey P f) : GatesObey P (s.whenRoom f) := by
  unfold State.whenRoom
  split
  · exact ok
  · exact h

theorem GatesObey.takeRequest (law : RecordLaw P O) (ok : GatesObey P s) (n : Byte) (r : Request) :
    GatesObey P (s.takeRequest n r) := ok.whenRoom (ok.takeKnown law n r)

theorem GatesObey.takeFrame (law : RecordLaw P O) (ok : GatesObey P s) (kind n : Byte) (body : List Byte) :
    GatesObey P (s.takeFrame kind n body) := by
  unfold State.takeFrame
  split
  · exact ok.whenRoom ok
  · split
    · exact ok.takeRequest law n _
    · exact ok.whenRoom ok

/-- A byte from the host, with the request that it may complete (R197, R199). -/
theorem GatesObey.receive (law : RecordLaw P O) (ok : GatesObey P s) (b : Byte) (stopHigh : Bool) :
    GatesObey P (s.receive b stopHigh) := by
  have complete : ∀ l, GatesObey P (s.completeFrame l) := by
    intro l
    unfold State.completeFrame
    simp only
    split
    · exact GatesObey.takeFrame (s := s.setLink s.link.waiting) law ok _ _ _
    · exact ok
  unfold State.receive
  split
  · split
    · exact ok
    · exact ok
  · split
    · split
      · exact ok
      · exact ok
    · unfold State.openByte
      simp only
      split
      · exact ok
      · split
        · exact complete _
        · exact ok

theorem GatesObey.gapExpired (ok : GatesObey P s) : GatesObey P s.gapExpired := by
  unfold State.gapExpired
  split
  · exact ok
  · exact ok

theorem GatesObey.frameFinished (ok : GatesObey P s) : GatesObey P s.frameFinished := by
  unfold State.frameFinished
  split
  · exact ok
  · exact ok

/-! ### Field events -/

theorem GatesObey.pinEvent (law : GateLaw P O) (ok : GatesObey P s) (g : GateNo) (ch : Channel) (pos : PinPos) :
    GatesObey P (s.pinEvent g ch pos) := by
  unfold State.pinEvent
  simp only
  split
  · exact ok
  · split
    · exact ok
    · exact (GatesObey.pinChanged (s := s.setPinInput g _) law ok g _).finish

theorem GatesObey.readyEvent (ok : GatesObey P s) (u : UnitNo) (ready : Bool) : GatesObey P (s.readyEvent u ready) := by
  unfold State.readyEvent
  simp only
  split
  · exact ok
  · split
    · exact ok
    · split
      · exact (GatesObey.away (s := s.setUnitInput u _) ok (State.touch_unitReady _ u)).finish
      · exact ok

theorem GatesObey.faultEvent (law : GateLaw P O) (ok : GatesObey P s) (u : UnitNo) : GatesObey P (s.faultEvent u) := by
  unfold State.faultEvent
  simp only
  split
  · exact ok
  · split
    · exact ok
    · exact (GatesObey.faultAsserted (s := s.setUnitInput u _) law ok u).finish

theorem GatesObey.lineUpDone (law : GateLaw P O) (ok : GatesObey P s) (u : UnitNo) : GatesObey P (s.lineUpDone u) := by
  unfold State.lineUpDone
  split
  · exact ok.linedUp law u _ _
  · exact ok

theorem GatesObey.linedEvent (law : GateLaw P O) (ok : GatesObey P s) (u : UnitNo) (lined : Bool) :
    GatesObey P (s.linedEvent u lined) := by
  unfold State.linedEvent
  simp only
  split
  · exact ok
  · split
    · exact ok
    · split
      · exact (GatesObey.lineUpDone (s := s.setUnitInput u _) law ok u).finish
      · exact ok

theorem GatesObey.gaugeSilence (law : GateLaw P O) (ok : GatesObey P s) (g : Gauge) : GatesObey P (s.gaugeSilence g) := by
  unfold State.gaugeSilence
  split
  · exact ok.afterTide law _
  · exact ok

theorem GatesObey.coldReset (law : RecordLaw P O) (strap : LinkRate) : GatesObey P (s.coldReset strap) := by
  intro g
  have cold : (s.coldReset strap).gate g = GateRec.cold := by
    simp [State.coldReset, State.gate, State.coldValues, State.notify, State.setLink, Vector.get_eq_getElem]
  exact cold ▸ law.cold .cold

/-! ### The step -/

/-- An event is run to its end, or ignored while the reset line is held (R185). -/
theorem GatesObey.event (ok : GatesObey P s) {f : State → State} {t : State} (hf : GatesObey P (f s))
    (h : event s f = .next t) : GatesObey P t := by
  cases h
  split
  · exact ok
  · exact hf.finish

theorem GatesObey.simple (ok : GatesObey P s) {f : State → State} {t : State} (hf : GatesObey P (f s))
    (h : simple s f = .next t) : GatesObey P t := by
  cases h
  split
  · exact ok
  · exact hf

theorem GatesObey.request (law : RecordLaw P O) (ok : GatesObey P s) {n : Byte} {r : Request} {t : State}
    (h : request s n r = .next t) : GatesObey P t := by
  cases h
  split
  · exact ok
  · exact ok.takeRequest law n r

/-- Every command but the assertion of the reset line, which sets the outputs of every gate (R185). -/
theorem GatesObey.exec (law : RecordLaw P O) (ok : GatesObey P s) {i : Instr} {t : State} (h : exec i s = .next t)
    (ne : i ≠ .resetLineAsserted) : GatesObey P t := by
  cases i with
  | resetLineAsserted => exact absurd rfl ne
  | coldReset strap =>
    cases h
    exact .coldReset law strap
  | weirClockTick => exact ok.simple (f := fun s => { s with clock := s.clock + 1 }) ok h
  | receivedByte b stopHigh => exact ok.simple (f := fun s => s.receive b stopHigh) (ok.receive law b stopHigh) h
  | gapTimerExpiry => exact ok.simple ok.gapExpired h
  | frameFinished => exact ok.simple ok.frameFinished h
  | status | setClock | run | hold | stopAll | reset | setNotices | configureGatePresent | configureGateAbsent
  | configureUnit | configureArbiter | configureTide | configureThreshold | configureEnvelope | configureQueue
  | postOrder | withdrawOrder | readSlot | unlock | listSlots | readGate | stopGate | clearTrip | setUnitServiceOut
  | setUnitServiceIn | readTide | pushPoints | peekPoints | flushPoints | readQueue | setLoadWindow | writeCells
  | setStepDwell | readCells | defineSequence | startSequence | stopSequence => exact ok.request law h
  | encoderSample g ch count pressure elapsed =>
    exact ok.event (f := fun s => s.encoderSample g ch count pressure elapsed)
      (ok.encoderSample law.toGateLaw g ch count pressure elapsed) h
  | encoderSilenceExpiry g e => exact ok.event (f := fun s => s.encoderSilence g e) (ok.encoderSilence law.toGateLaw g e) h
  | lockPinFeedback g ch pos =>
    cases h
    exact ok.pinEvent law.toGateLaw g ch pos
  | releaseTimerExpiry g => exact ok.event (ok.releaseExpired law.toGateLaw g) h
  | buildTimerExpiry g => exact ok.event (ok.buildExpired law.toGateLaw g) h
  | stallTimerExpiry g e => exact ok.event (ok.stallExpired law.toGateLaw g e) h
  | settleTimerExpiry g => exact ok.event (ok.settleExpired law.toGateLaw g) h
  | lockTimerExpiry g => exact ok.event (ok.lockExpired law.toGateLaw g) h
  | tripLockTimerExpiry g => exact ok.event (ok.tripLockExpired law.toGateLaw g) h
  | holdTimerExpiry g => exact ok.event (ok.holdExpired law.toGateLaw g) h
  | readyChange u ready =>
    cases h
    exact ok.readyEvent u ready
  | faultAssertion u =>
    cases h
    exact ok.faultEvent law.toGateLaw u
  | faultClearing u =>
    cases h
    exact ok
  | linedUpChange u lined =>
    cases h
    exact ok.linedEvent law.toGateLaw u lined
  | startTimerExpiry u =>
    exact ok.event (f := fun s => s.startExpired u) (ok.away ((State.touch_startFailed s u).ite (.refl s))) h
  | lineUpTimerExpiry u =>
    exact ok.event (f := fun s => s.lineUpExpired u) (ok.away ((State.touch_lineUpFailed s u).ite (.refl s))) h
  | idleTimerExpiry u =>
    have off : Touch (fun _ => False) s (s.idleStopped u) := State.touch_modUnit s u _ fun _ _ => rfl
    exact ok.event (f := fun s => s.idleExpired u) (ok.away (off.ite (.refl s))) h
  | gaugeSample g x => exact ok.event (f := fun s => s.gaugeSample g x) (ok.afterTide law.toGateLaw _) h
  | gaugeSilenceExpiry g => exact ok.event (f := fun s => s.gaugeSilence g) (ok.gaugeSilence law.toGateLaw g) h
  | postingAttempt => exact ok.event (ok.away (State.touch_dueAttempt _)) h
  | runnerCollection k => exact ok.event (ok.away (State.touch_collect _ k)) h
  | dwellTimerExpiry => exact ok.event (ok.away (State.touch_dwellEvent _)) h

end

/-! ### The reset line -/

/-- A command that is ignored while the reset line is held leaves the state (R185). -/
theorem held_unless {s t u : State} (held : s.resetHeld = true)
    (h : (Host.Outcome.next (if s.resetHeld then s else u) : Result) = .next t) : t = s := by
  rw [held] at h
  exact (Host.Outcome.next.inj h).symm

/-- An input event while the reset line is held: the level is recorded at most (R185; log 4). -/
theorem resetHeld_inputEvent {s s' u : State} {p : Prop} [Decidable p] (held : s.resetHeld = true)
    (held' : s'.resetHeld = true) : (if p then s else if s'.resetHeld then s' else u).resetHeld = true := by
  rw [if_pos held']
  split
  · exact held
  · exact held'

/-- While the reset line is held, it stays held through every command but the two resets (R185; log 4). -/
theorem resetHeld_exec {i : Instr} {s t : State} (held : s.resetHeld = true) (h : exec i s = .next t)
    (ne : ∀ strap, i ≠ .coldReset strap) : t.resetHeld = true := by
  cases i with
  | coldReset strap => exact absurd rfl (ne strap)
  | resetLineAsserted =>
    cases h
    rfl
  | lockPinFeedback g ch pos =>
    cases h
    exact resetHeld_inputEvent held held
  | readyChange u ready =>
    cases h
    exact resetHeld_inputEvent held held
  | faultAssertion u =>
    cases h
    exact resetHeld_inputEvent held held
  | faultClearing u =>
    cases h
    exact held
  | linedUpChange u lined =>
    cases h
    exact resetHeld_inputEvent held held
  | _ => exact (held_unless held h) ▸ held

/-! ### CONFIGURE_GATE and the outputs of chapter 2 -/

/-- CONFIGURE_GATE with PRESENT of an ABSENT gate (R13). -/
theorem GateRec.configured_of_absent (r : GateRec) (p : GateParams) (h : r.state = .absent) :
    r.configured p = { { r with params := p }.modEnds EndRec.reconfigured with
      state := .parked, move := .empty, levelRequired := false, trip := none } := if_pos h

/-- CONFIGURE_GATE with PRESENT of a gate that is present (R13). -/
theorem GateRec.configured_of_present (r : GateRec) (p : GateParams) (h : r.state ≠ .absent) :
    r.configured p = { r with params := p }.modEnds EndRec.reconfigured := if_neg h

/-- The outputs of chapter 2's table are kept by the requests that write a whole record: CONFIGURE_GATE leaves the outputs
of both ends, and ABSENT, PARKED and TRIPPED have the same ones (R2, R12, R13, R37). -/
theorem outputsRecordLaw : RecordLaw gateOutputs PinsOut where
  toGateLaw := outputsLaw
  cold p := (gateOutputs_ends _).2 ⟨⟨rfl, rfl⟩, rfl, rfl⟩
  configured r p ok := by
    have h := (gateOutputs_ends r).1 ok
    by_cases st : r.state = .absent
    · rw [r.configured_of_absent p st]
      rw [st] at h
      exact (gateOutputs_ends _).2 h
    · rw [r.configured_of_present p st]
      exact (gateOutputs_ends _).2 h
  cleared r ok st := by
    have h := (gateOutputs_ends r).1 ok
    rw [st] at h
    exact (gateOutputs_ends _).2 h

end Sys2Proof.Machine

namespace Sys2Proof.Proofs

open Sys2Proof.Machine Sys2Proof.Safety

/-- Every gate drives the outputs of its state after every command (R2, R16). -/
theorem exec_keeps_gatesDriveTheirState {i : Instr} {s t : State} (ok : GatesDriveTheirState s)
    (h : exec i s = .next t) : GatesDriveTheirState t := by
  intro released
  by_cases reset : i = .resetLineAsserted
  · subst reset
    cases h
    exact absurd released (by simp [State.assertReset])
  · cases held : s.resetHeld with
    | false => exact GatesObey.exec outputsRecordLaw (ok held) h reset
    | true =>
      by_cases cold : ∃ strap, i = .coldReset strap
      · obtain ⟨strap, rfl⟩ := cold
        cases h
        exact GatesObey.coldReset outputsRecordLaw strap
      · have still_held := resetHeld_exec held h fun strap e => cold ⟨strap, e⟩
        exact absurd (still_held.symm.trans released) (by simp)

/-- Settles O58: the front command keeps the outputs, and an empty queue idles. -/
theorem stepKeepsGateOutputs : Obligations.StepKeepsGateOutputs := by
  unfold Obligations.StepKeepsGateOutputs
  intro s t ok h
  unfold step at h
  split at h
  · cases h
    exact ok
  · next i rest _ => exact exec_keeps_gatesDriveTheirState (s := { s with pending := rest }) ok h

end Sys2Proof.Proofs
end

section
/-! Requests from their frame to their reply, and the layouts of what the device sends (R192, R199 to R201, R206, R207). -/

namespace Sys2Proof.Machine

open Sys2Proof.Safety

/-! ### Checks and numbers -/

theorem State.checked_pass (s : State) {l : List (Nat × Bool)} (f : Answer × State) (h : firstBad l = none) :
    s.checked l f = f := by
  unfold State.checked
  rw [h]

theorem firstBad_cons_of_true (n : Nat) {b : Bool} (l : List (Nat × Bool)) (h : b = true) :
    firstBad ((n, b) :: l) = firstBad l := by
  rw [firstBad, if_pos h]

theorem inNat_eq_true {lo hi x : Nat} (h : lo ≤ x) (k : x ≤ hi) : inNat lo hi x = true := by simp [inNat, h, k]

theorem inNat_gate (g : GateNo) : inNat 0 5 g.val = true := inNat_eq_true (Nat.zero_le _) (Nat.le_of_lt_succ g.isLt)

@[simp] theorem gateOf_val (g : GateNo) : gateOf g.val = some g := dif_pos g.isLt
@[simp] theorem stepOf_val (i : StepNo) : stepOf i.val = some i := dif_pos i.isLt

@[simp] theorem State.named_some {α : Type} (s : State) (a : α) (f : α → Answer × State) : s.named (some a) f = f a := rfl

/-! ### A request from its frame to its reply -/

/-- STATUS is taken in every mode (R192). -/
theorem State.modeTest_status (s : State) : s.modeTest .status = none := if_pos rfl

/-- In CONFIG every request is taken (R192). -/
theorem State.modeTest_of_config {s : State} (h : s.mode = .config) (r : Request) : s.modeTest r = none := by
  unfold State.modeTest
  rw [h]
  exact ite_self none

/-- A request that is neither of CONFIG alone nor START_SEQUENCE is taken in every mode but RESETTING (R192). -/
theorem State.modeTest_of_anyMode {s : State} (h : s.mode ≠ .resetting) {r : Request} (c : configOnly r = false)
    (ne : r ≠ .startSequence) : s.modeTest r = none := by
  unfold State.modeTest
  cases m : s.mode with
  | resetting => exact absurd m h
  | config | run | draining => simp [c, ne]

/-- A request that passes the mode test and whose event leaves the line as it was: the reply of its owning block's
answer is placed in the state that block leaves (R192, R199, R201). -/
theorem request_served {s s' : State} {n : Byte} {r : Request} {a : Answer} (l : Listening s)
    (mode : s.modeTest r = none) (ne : r ≠ .reset) (serve : s.serve r = (a, s'))
    (line : s'.link.line = s.link.line) :
    request s n r = .next (s'.placeReply (a.reply n (BitVec.ofNat 8 (codeOf r)))) := by
  have room : ¬2 ≤ s.link.replies.length := Nat.not_le.2 l.2
  unfold request State.takeRequest State.whenRoom State.takeKnown
  simp only [l.1, room, mode, ne, serve, Bool.false_eq_true, if_false]
  rw [← line, s'.reply_of_line_kept]

/-- An event without a report and without a round ends where it stands (R78, R189). -/
theorem State.taken_of_marksClear {s : State} (m : MarksClear s) : s.taken = (.ok [], s) := by
  unfold State.taken
  rw [State.finish_of_marksClear m]

/-! ### Layouts -/

/-- A two-byte unsigned number is its high byte and its low byte (R206). -/
theorem encU16_eq (x : Nat) : encU16 x = [BitVec.ofNat 8 (x / 256), BitVec.ofNat 8 x] := by
  have high : (BitVec.ofNat 16 x).extractLsb' 8 8 = BitVec.ofNat 8 (x / 256) := by
    apply BitVec.eq_of_toNat_eq
    simp only [BitVec.extractLsb'_toNat, BitVec.toNat_ofNat, Nat.shiftRight_eq_div_pow]
    omega
  have low : (BitVec.ofNat 16 x).extractLsb' 0 8 = BitVec.ofNat 8 x := by
    apply BitVec.eq_of_toNat_eq
    simp only [BitVec.extractLsb'_toNat, BitVec.toNat_ofNat, Nat.shiftRight_eq_div_pow]
    omega
  unfold encU16 encWord
  rw [high, low]

/-- Millimetres within two signed bytes are the two bytes of their two's complement (R206). -/
theorem encMm_eq {x : Int} (lo : -32768 ≤ x) (hi : x ≤ 32767) :
    encMm x = [BitVec.ofNat 8 ((x % 65536).toNat / 256), BitVec.ofNat 8 (x % 65536).toNat] := by
  have word : BitVec.ofInt 16 x = BitVec.ofNat 16 (x % 65536).toNat := by
    apply BitVec.eq_of_toNat_eq
    simp only [BitVec.toNat_ofInt, BitVec.toNat_ofNat]
    omega
  rw [← encU16_eq, encMm, if_pos ⟨lo, hi⟩, word, encU16]

/-- The unread mark as an optional item of the report (R47, R67). -/
theorem Slot.unread_eq (k : Slot) : k.unread = (k.report.map fun r => r.unread).getD false := by
  unfold Slot.unread
  cases k.report with
  | none => rfl
  | some r => rfl

/-- The set of present gates, said by what an ABSENT gate leaves out (R194). -/
theorem presentSet_eq (s : State) :
    s.presentSet = (allGates.map fun g => if (s.gate g).state = .absent then 0 else 2 ^ g.val).sum := by
  have present : ∀ (st : GateState) (n : Nat), (if st.present then n else 0) = if st = .absent then 0 else n := by
    intro st n
    cases st <;> rfl
  simp only [State.presentSet, present]

/-- An ABSENT gate has every optional item absent (R15). -/
theorem encGate_absent (s : State) (g : GateNo) (h : (s.gate g).state = .absent) :
    s.encGate g = [0, 0, 0, 0, 0, 0, 0, 0] ++ encFlag (s.gate g).levelRequired ++ [0, 0, 0, 0, 0, 0, 0] := by
  simp [State.encGate, h, GateState.present, GateState.code, encOpt, encU8]

theorem GateState.present_of_ne {st : GateState} (h : st ≠ .absent) : st.present = true := by
  unfold GateState.present
  split
  · exact absurd rfl h
  · rfl

theorem encOpt_some {α : Type} (f : α → List Byte) (x : α) : encOpt f (some x) = [1] ++ f x := rfl

/-- A cell of the stage table: FFFF for EMPTY, the millimetres of its target otherwise (R206). -/
theorem encCell_eq (x : Option Int) : encCell x = match x with
    | none => [255, 255]
    | some x => encMm x := by
  cases x with
  | none => exact encU16_eq 0xFFFF
  | some x => rfl

/-- The data of READ_CELLS with its cells and its pointer written out (R168). -/
theorem encCells_layout (t : Stage) (i : StepNo) : encCells t i =
    encU16 (t.steps.get i).dwell
      ++ (allGates.map fun g => match (t.steps.get i).cells.get g with
            | none => [255, 255]
            | some x => encMm x).flatten
      ++ encU8 t.window.firstStep.val ++ encU8 t.window.lastStep.val ++ encU8 t.window.firstGate.val
      ++ encU8 t.window.lastGate.val ++ encU8 t.window.advance.code ++ encU8 t.pointer.1.val ++ encU8 t.pointer.2.val := by
  simp only [encCells, encPointer, encCell_eq, List.append_assoc]

/-! ### Reading requests -/

/-- PEEK_POINTS with its fields in range, of a queue with a partition (R150). -/
theorem servePeek_of_queue (s : State) (g : GateNo) {p c : Nat} (hp : p ≤ 127) (lo : 1 ≤ c) (hi : c ≤ 16)
    (size : (s.queue g).size ≠ 0) :
    s.servePeek g.val p c = (.ok (encU8 (s.queue g).level ++ encU8 (((s.queue g).points.drop p).take c).length
      ++ ((((s.queue g).points.drop p).take c).map encPoint).flatten), s) := by
  have pass : firstBad [(1, inNat 0 5 g.val), (2, inNat 0 127 p), (3, inNat 1 16 c)] = none := by
    simp [firstBad, inNat_gate, inNat_eq_true, hp, lo, hi]
  rw [State.servePeek, State.checked_pass s _ pass, gateOf_val, State.named_some]
  simp only [size, if_false]

end Sys2Proof.Machine

namespace Sys2Proof.Proofs

open Sys2Proof.Machine Sys2Proof.Safety

/-- Settles O10: each reading request is served from the state as it stands, and the layouts are the model's encoders
written out. -/
theorem readsReplyAndKeepState : Obligations.ReadsReplyAndKeepState := by
  unfold Obligations.ReadsReplyAndKeepState
  refine ⟨fun n s l => ⟨?status, fun mode => ?reads⟩, ⟨fun x => ⟨rfl, encU16_eq x⟩, fun _ => encMm_eq, fun _ => rfl, rfl,
      rfl, ?optional⟩,
    fun s => ⟨?statusItems, ?listItems, fun g => ⟨encGate_absent s g, fun present => ?gateItems⟩⟩, fun _ => rfl,
    fun _ => rfl, encCells_layout, fun _ => rfl, by decide, by decide⟩
  case status => exact request_served (r := .status) l s.modeTest_status (by simp) rfl rfl
  case reads =>
    have read : ∀ {r : Request} {data : List Byte}, configOnly r = false → r ≠ .startSequence → r ≠ .reset →
        s.serve r = (.ok data, s) →
        request s n r = .next (s.placeReply (okReply n (BitVec.ofNat 8 (codeOf r)) data)) :=
      fun c start ne serve => request_served l (State.modeTest_of_anyMode mode c start) ne serve rfl
    refine ⟨read (r := .listSlots) rfl (by simp) (by simp) rfl, read (r := .readTide) rfl (by simp) (by simp) rfl,
      fun g => read (r := .readGate g.val) rfl (by simp) (by simp) ?gate,
      fun g => read (r := .readQueue g.val) rfl (by simp) (by simp) ?queue,
      fun i => read (r := .readCells i.val) rfl (by simp) (by simp) ?cells,
      fun g p c hp lo hi size =>
        read (r := .peekPoints g.val p c) rfl (by simp) (by simp) (servePeek_of_queue s g hp lo hi size)⟩
    case gate => rw [State.serve, State.serveReadGate, gateOf_val, State.named_some]
    case queue => rw [State.serve, State.serveReadQueue, gateOf_val, State.named_some]
    case cells => rw [State.serve, State.serveReadCells, stepOf_val, State.named_some]
  case optional =>
    intro x
    cases x with
    | none => rfl
    | some v => rfl
  case statusItems =>
    simp only [State.encStatus, State.encMode, presentSet_eq, State.countSlots, List.map_cons, List.map_nil,
      List.flatten_cons, List.flatten_nil, List.append_nil, List.append_assoc]
  case listItems => simp only [State.encSlots, encListed, State.locked, Slot.unread_eq]
  case gateItems =>
    simp only [State.encGate, GateState.present_of_ne present, if_true, encOpt_some, List.append_assoc]
    rfl

/-- Settles O15: PRESENT leaves `GateRec.configured`, ABSENT the cold record with the gate's parameters. -/
theorem configureGateWrites : Obligations.ConfigureGateWrites := by
  unfold Obligations.ConfigureGateWrites
  refine ⟨fun n g p s l m mode pass => ⟨(s.gate g).configured (gateParamsOf p), ?written, ?record⟩,
    fun n g s l m mode st free => ?removed⟩
  case written =>
    have number : firstBad [(1, inNat 0 5 g.val), (2, inNat 0 1 1)] = none := by
      rw [firstBad_cons_of_true _ _ (inNat_gate g)]
      rfl
    have serve : s.serve (.configureGate g.val 1 p) =
        (.ok [], s.setGate g ((s.gate g).configured (gateParamsOf p))) := by
      rw [State.serve, if_neg Nat.one_ne_zero, State.serveGatePresent, State.checked_pass s _ number, gateOf_val,
        State.named_some, State.checked_pass s _ pass]
      exact State.taken_of_marksClear m
    exact request_served l (State.modeTest_of_config mode _) (by simp) serve rfl
  case record =>
    by_cases st : (s.gate g).state = .absent
    · rw [GateRec.configured_of_absent _ _ st]
      refine ⟨rfl, fun e => ?_, fun _ => ⟨rfl, rfl, rfl, rfl⟩, fun ne => absurd st ne⟩
      cases e <;> rfl
    · rw [GateRec.configured_of_present _ _ st]
      refine ⟨rfl, fun e => ?_, fun a => absurd a st, fun _ => ⟨rfl, rfl, rfl, rfl⟩⟩
      cases e <;> rfl
  case removed =>
    have serve : s.serve (.configureGate g.val 0 noGateFields) =
        (.ok [], s.setGate g { GateRec.cold with params := (s.gate g).params }) := by
      rw [State.serve, if_pos rfl, State.serveGateAbsent, gateOf_val, State.named_some, if_neg st, free,
        if_neg Bool.false_ne_true]
      exact State.taken_of_marksClear m
    exact request_served l (State.modeTest_of_config mode _) (by simp) serve rfl

end Sys2Proof.Proofs
end

section
/-! Encoder samples and silence (R4, R6 to R10). -/

namespace Sys2Proof.Machine

open Sys2Proof.Safety

/-! ### An end's sample (R6, R7, R9) -/

theorem EndRec.inTime_iff (h : EndRec) (t : Nat) : h.inTime t = true ↔ h.silence.isSome = true ∧ t ≤ 250 := by
  rw [EndRec.inTime, Bool.and_eq_true, decide_eq_true_eq]
  rfl

/-- The model's test of a GOOD end is the two tests of R7. -/
theorem EndRec.passes_iff (h : EndRec) (x : Int) (t : Nat) (st : h.status = .good) :
    h.passes x t = true ↔ passesTests h x t := by
  unfold EndRec.passes passesTests
  rw [Bool.and_eq_true, h.inTime_iff, and_assoc]
  cases h.held with
  | none => simp
  | some y => simp [st]

/-- The model's test of a FAULTED end is the consistency of R9. -/
theorem EndRec.consistent_iff (h : EndRec) (x : Int) (t : Nat) :
    h.consistent x t = true ↔ consistentWithLast h x t := by
  unfold EndRec.consistent consistentWithLast
  rw [Bool.and_eq_true, h.inTime_iff, and_assoc]
  cases h.reference with
  | none => simp
  | some y => simp

section

variable (h : EndRec) (x : Int) (p t : Nat)

/-- The first sample of an UNKNOWN end (R6). -/
theorem EndRec.sample_unknown (st : h.status = .unknown) :
    h.sample x p t = ({ h.received x p with status := .good, held := some x, recovery := 0 }, .accepted) := by
  simp only [EndRec.sample, st]

/-- A sample that passes both tests of a GOOD end (R7). -/
theorem EndRec.sample_passing (pass : passesTests h x t) :
    h.sample x p t = ({ h.received x p with held := some x }, .accepted) := by
  simp only [EndRec.sample, pass.1, (h.passes_iff x t pass.1).2 pass, if_true]

/-- A sample that fails a test of a GOOD end (R7). -/
theorem EndRec.sample_failing (st : h.status = .good) (fail : ¬passesTests h x t) :
    h.sample x p t = ({ h.received x p with status := .faulted, recovery := 0 }, .faulted) := by
  simp only [EndRec.sample, st, Bool.eq_false_iff.2 ((h.passes_iff x t st).not.2 fail), Bool.false_eq_true, if_false]

/-- A consistent sample of a FAULTED end counts toward recovery, and the fourth makes the end GOOD (R9). -/
theorem EndRec.sample_consistent (st : h.status = .faulted) (c : consistentWithLast h x t) :
    h.sample x p t =
      (if 4 ≤ h.recovery + 1 then { h.received x p with status := .good, held := some x, recovery := 0 }
        else { h.received x p with recovery := h.recovery + 1 }, .recorded) := by
  simp only [EndRec.sample, st, (h.consistent_iff x t).2 c, if_true]
  split <;> rfl

/-- Any other sample of a FAULTED end starts the count again (R9). -/
theorem EndRec.sample_inconsistent (st : h.status = .faulted) (c : ¬consistentWithLast h x t) :
    h.sample x p t = ({ h.received x p with recovery := 0 }, .recorded) := by
  simp only [EndRec.sample, st, Bool.eq_false_iff.2 ((h.consistent_iff x t).not.2 c), Bool.false_eq_true, if_false]

end

/-! ### A gate's sample -/

@[simp] theorem GateRec.state_modEnd (r : GateRec) (e : HoistEnd) (f : EndRec → EndRec) :
    (r.modEnd e f).state = r.state := by
  cases e <;> rfl

/-- A gate makes no motion decision from a sample in PARKED, RELEASING, LOCKING and TRIPPED. -/
theorem State.afterSample_idle {s : State} {g : GateNo} (e : HoistEnd) (res : SampleResult)
    (st : (s.gate g).state = .parked ∨ (s.gate g).state = .releasing ∨ (s.gate g).state = .locking ∨
      (s.gate g).state = .tripped) : s.afterSample g e res = s := by
  unfold State.afterSample
  rcases st with st | st | st | st <;> rw [st]

section

variable {s : State} {g : GateNo} {ch : Channel} {count p t : Nat} {e : HoistEnd} {x : Int}

/-- A sample at a present gate that does not fault its end: the end's record after it, and the motion decisions. -/
theorem State.encoderSample_of_sample (he : (s.gate g).params.swap.endOf ch = e)
    (hx : (s.gate g).params.opening e count = x) (present : (s.gate g).state ≠ .absent) {h' : EndRec}
    {res : SampleResult} (sample : ((s.gate g).hoist e).sample x p t = (h', res)) (ne : res ≠ .faulted) :
    s.encoderSample g ch count p t = (s.setGate g ((s.gate g).modEnd e fun _ => h')).afterSample g e res := by
  simp only [State.encoderSample, present, if_false, he, hx, sample]
  cases res with
  | faulted => exact absurd rfl ne
  | accepted => rfl
  | recorded => rfl

/-- A sample that fails a test of a GOOD end at a present gate faults the end (R7, R10). -/
theorem State.encoderSample_of_fault (he : (s.gate g).params.swap.endOf ch = e)
    (hx : (s.gate g).params.opening e count = x) (present : (s.gate g).state ≠ .absent)
    (good : ((s.gate g).hoist e).status = .good) (fail : ¬passesTests ((s.gate g).hoist e) x t) :
    s.encoderSample g ch count p t =
      (s.setGate g ((s.gate g).modEnd e fun h =>
        { h.received x p with status := .faulted, recovery := 0 })).encoderFault g e := by
  simp only [State.encoderSample, present, if_false, he, hx, EndRec.sample_failing _ _ _ _ good fail]
  cases e with
  | l => rfl
  | r => rfl

/-- The end of a silence timer that runs faults the end (R8, R10). -/
theorem State.encoderSilence_of_running (runs : ((s.gate g).hoist e).silence.isSome = true) :
    s.encoderSilence g e =
      if ((s.gate g).hoist e).status = .faulted then
        s.setGate g ((s.gate g).modEnd e fun h => { h with silence := none, status := .faulted, recovery := 0 })
      else
        (s.setGate g ((s.gate g).modEnd e fun h =>
          { h with silence := none, status := .faulted, recovery := 0 })).encoderFault g e := by
  obtain ⟨n, running⟩ := Option.isSome_iff_exists.1 runs
  simp only [State.encoderSilence, running]
  rfl

/-- The end of the event in which an end of a present gate enters FAULTED (R10). -/
theorem State.finish_encoderFault (e : HoistEnd) (m : MarksClear s)
    (present : (s.gate g).state ≠ .absent) :
    (s.encoderFault g e).finish =
      if (s.gate g).state = .tripped then s.modGate g fun r => r.addFurther .encoder
      else (s.tripGate g .encoder 0 (endConcern e)).finish := by
  unfold State.encoderFault
  split
  · next st => exact absurd st present
  · next st =>
    rw [if_pos st]
    exact State.finish_of_marksClear (s := s.modGate g fun r => r.addFurther .encoder) m
  · next st => rw [if_neg st]

end

theorem event_released {s : State} (h : s.resetHeld = false) (f : State → State) : event s f = .next (f s).finish := by
  unfold event
  rw [h]
  rfl

theorem exec_encoderSample {s : State} (h : s.resetHeld = false) (g : GateNo) (ch : Channel) (count p t : Nat) :
    exec (.encoderSample g ch count p t) s = .next (s.encoderSample g ch count p t).finish :=
  event_released h fun s => s.encoderSample g ch count p t

theorem exec_encoderSilenceExpiry {s : State} (h : s.resetHeld = false) (g : GateNo) (e : HoistEnd) :
    exec (.encoderSilenceExpiry g e) s = .next (s.encoderSilence g e).finish :=
  event_released h fun s => s.encoderSilence g e

/-- A sample that its gate makes no motion decision from leaves its end's record alone (R6, R7, R9). -/
theorem exec_encoderSample_idle {s : State} {g : GateNo} {ch : Channel} {count p t : Nat} {e : HoistEnd} {x : Int}
    {h' : EndRec} {res : SampleResult} (released : s.resetHeld = false) (m : MarksClear s)
    (st : (s.gate g).state = .parked ∨ (s.gate g).state = .releasing ∨ (s.gate g).state = .locking ∨
      (s.gate g).state = .tripped)
    (he : (s.gate g).params.swap.endOf ch = e) (hx : (s.gate g).params.opening e count = x)
    (sample : ((s.gate g).hoist e).sample x p t = (h', res)) (ne : res ≠ .faulted) :
    exec (.encoderSample g ch count p t) s = .next (s.setGate g ((s.gate g).modEnd e fun _ => h')) := by
  have present : (s.gate g).state ≠ .absent := by
    rcases st with st | st | st | st <;> rw [st] <;> simp
  rw [exec_encoderSample released, State.encoderSample_of_sample he hx present sample ne,
    State.afterSample_idle _ _ (by simpa using st)]
  exact congrArg _ (State.finish_of_marksClear (s := s.setGate g _) m)

end Sys2Proof.Machine

namespace Sys2Proof.Proofs

open Sys2Proof.Machine Sys2Proof.Safety

/-- Settles O31: by the status of the end and the test of its sample, and by the state of the gate where an end enters
FAULTED. -/
theorem encoderJudgesSamples : Obligations.EncoderJudgesSamples := by
  unfold Obligations.EncoderJudgesSamples
  refine ⟨fun g ch count p t s released m => ⟨fun st => ?absent, fun st => ⟨fun unknown => ?first, fun pass => ?accepted,
    fun faulted c => ?recovering, fun faulted c => ?inconsistent⟩⟩, fun g s released m present =>
    ⟨fun ch count p t good fail => ?failing, fun e runs => ?silent⟩⟩
  case absent =>
    have ignored : s.encoderSample g ch count p t = s := if_pos st
    rw [exec_encoderSample released, ignored, State.finish_of_marksClear m]
  case first =>
    exact exec_encoderSample_idle released m st rfl rfl (EndRec.sample_unknown _ _ _ _ unknown) (by simp)
  case accepted =>
    exact exec_encoderSample_idle released m st rfl rfl (EndRec.sample_passing _ _ _ _ pass) (by simp)
  case recovering =>
    exact exec_encoderSample_idle released m st rfl rfl (EndRec.sample_consistent _ _ _ _ faulted c) (by simp)
  case inconsistent =>
    exact exec_encoderSample_idle released m st rfl rfl (EndRec.sample_inconsistent _ _ _ _ faulted c) (by simp)
  case failing =>
    rw [exec_encoderSample released, State.encoderSample_of_fault rfl rfl present good fail,
      State.finish_encoderFault _ (by exact m) (by simpa using present), State.gate_setGate_self, GateRec.state_modEnd]
    rfl
  case silent =>
    rw [exec_encoderSilenceExpiry released, State.encoderSilence_of_running runs]
    by_cases faulted : ((s.gate g).hoist e).status = .faulted
    · rw [if_pos faulted]
      simp only [faulted, if_true]
      exact congrArg _ (State.finish_of_marksClear (s := s.setGate g _) m)
    · simp only [faulted, if_false]
      rw [State.finish_encoderFault _ (by exact m) (by simpa using present), State.gate_setGate_self,
        GateRec.state_modEnd]

/-- Settles O30: division toward zero, split at the sign of the difference. -/
theorem openingConversion : Obligations.OpeningConversion := by
  have toward_zero : ∀ (d : Int) (scale : Nat),
      (d * 10).tdiv scale = if 0 ≤ d then (d * 10) / scale else -((-d * 10) / scale) := by
    intro d scale
    split
    · next h => exact Int.tdiv_eq_ediv_of_nonneg (by omega)
    · next h =>
      rw [← Int.tdiv_eq_ediv_of_nonneg (a := -d * 10) (by omega), Int.neg_mul, Int.neg_tdiv, Int.neg_neg]
  unfold Obligations.OpeningConversion
  intro zeroCount scale count _ d
  refine ⟨toward_zero d scale, ?_, ?_⟩
  · have down : openingOf .downCounts zeroCount scale count = -((d * 10).tdiv scale) := by
      rw [← Int.neg_tdiv, ← Int.neg_mul]
      rfl
    rw [down, toward_zero]
    split
    · rfl
    · exact Int.neg_neg _
  · intro hs hc
    have span : d * 10 = 250000 := by omega
    have up : openingOf .upCounts zeroCount scale count = (d * 10).tdiv scale := rfl
    rw [up, span, hs]
    rfl

end Sys2Proof.Proofs
end

section
/-! What a command can do to the state, said once: every step is a run of writes of a few kinds (`Written`), so a law
that each kind of write keeps is kept by every step. The laws of the order table are two such laws. -/

namespace Sys2Proof.Machine

open Sys2Proof.Safety

/-- `t` comes from `s` by writes of the kinds that commands make: what `KeptButMode` says of the operations below the
requests and of mode control, and beside it the writes of single requests and input events, of the resets and of the
queue of commands. -/
inductive Written : State → State → Prop where
  | refl (s : State) : Written s s
  | trans {s t u : State} : Written s t → Written t u → Written s u
  | kept {s t : State} (h : KeptButMode s t) : Written s t
  | link (s : State) (l : Link) : Written s (s.setLink l)
  | clock (s : State) (c : Clock) : Written s { s with clock := c }
  | arbitration (s : State) (m : ArbMode) : Written s { s with arbitration := m }
  | definition (s : State) (d : SequenceDef) : Written s { s with definition := some d }
  | stage (s : State) (x : Stage) : Written s (s.setStage x)
  | envelope (s : State) (e : Envelope) : Written s (s.setEnvelope e)
  | unitInput (s : State) (u : UnitNo) (i : UnitInputs) : Written s (s.setUnitInput u i)
  | pinInput (s : State) (g : GateNo) (p : PinInputs) : Written s (s.setPinInput g p)
  | takeLock (s : State) (k : SlotNo) : Written s (s.takeLock k)
  | markRead (s : State) (k : SlotNo) : Written s (s.modSlot k Slot.markRead)
  | pushed (s : State) (g : GateNo) (l : List Point) : Written s (s.setQueue g ((s.queue g).appended l))
  | flushed (s : State) (g : GateNo) : Written s (s.setQueue g (s.queue g).emptied)
  | partitioned (s : State) (g : GateNo) (f : RawQueue) (pass : firstBad (queueChecks f) = none)
    (vacant : ¬(¬((s.queue g).base = f.base ∧ (s.queue g).size = f.size) ∧ (s.queue g).points ≠ []))
    (apart : ¬(0 < f.size ∧ s.overlapsOther g f.base f.size = true)) :
    Written s (s.setQueue g ((s.queue g).configured f))
  | tideConfigured (s : State) (f : RawTide) : Written s (s.setTide (s.tide.configured f))
  | threshold (s : State) (i : ThrNo) (x : Threshold) : Written s (s.setTide (s.tide.setThreshold i x))
  | tideSampled (s : State) (g : Gauge) (x : Int) : Written s (s.setTide (s.tide.sample g x s.clock).1)
  | tideSilent (s : State) (g : Gauge) : Written s (s.setTide (s.tide.silent g s.clock).1)
  | lineAsserted (s : State) : Written s s.assertReset
  | coldReset (s : State) (strap : LinkRate) : Written s (s.coldReset strap)
  | dequeued (s : State) (l : List Instr) : Written s { s with pending := l }

theorem Touch.written {m : GateNo → Prop} {s t : State} (h : Touch m s t) : Written s t := .kept h.kept.butMode

namespace Written

variable {s t : State}

theorem ite {a b : State} {p : Prop} [Decidable p] (ha : Written s a) (hb : Written s b) :
    Written s (if p then a else b) := by
  split
  · exact ha
  · exact hb

theorem finish (h : Written s t) : Written s t.finish := h.trans (.kept t.keptBM_finish)

/-! ### Requests -/

theorem checked (l : List (Nat × Bool)) {f : Answer × State} (h : firstBad l = none → Written s f.2) :
    Written s (s.checked l f).2 := by
  unfold State.checked
  split
  · exact .refl s
  · next pass => exact h pass

theorem named {α : Type} (x : Option α) {f : α → Answer × State} (h : ∀ a, Written s (f a).2) :
    Written s (s.named x f).2 := by
  unfold State.named
  split
  · exact h _
  · exact .refl s

theorem taken (h : Written s t) : Written s t.taken.2 := h.finish

theorem withMode (h : Written s t) (st : Status) : Written s (State.withMode st t).2 := h

theorem serveRun (s : State) : Written s s.serveRun.2 := by
  have run : Written s s.toRun.finish := (Written.kept s.keptBM_toRun).finish
  unfold State.serveRun
  split
  · split
    · exact run.withMode _
    · exact (Written.refl s).withMode _
  · exact (Written.refl s).withMode _
  · exact (Written.refl s).withMode _
  · exact run.withMode _
  · exact (Written.refl s).withMode _

theorem serveHold (s : State) : Written s s.serveHold.2 := by
  have hold : Written s s.beginHold.finish := (Written.kept s.keptBM_beginHold).finish
  unfold State.serveHold
  split
  · exact hold.withMode _
  · exact (Written.refl s).withMode _
  · exact (Written.refl s).withMode _

theorem serveStopAll (s : State) : Written s s.serveStopAll.2 := by
  have stop : Written s s.beginStop.finish := (Written.kept s.keptBM_beginStop).finish
  unfold State.serveStopAll
  split
  · exact stop.withMode _
  · exact s.touch_giveStops.written.finish.withMode _
  · exact stop.withMode _
  · exact (s.touch_stopRunner (m := fun _ => True)).written.finish.withMode _
  · exact (Written.refl s).withMode _

theorem modGate (s : State) (g : GateNo) (f : GateRec → GateRec) : Written s (s.modGate g f) :=
  (State.touch_modGate (m := Eq g) s rfl f).written

theorem serveGatePresent (s : State) (g p : Nat) (f : RawGate) : Written s (s.serveGatePresent g p f).2 :=
  .checked _ fun _ => .named _ fun g => .checked _ fun _ => (modGate s g _).taken

theorem serveGateAbsent (s : State) (g : Nat) : Written s (s.serveGateAbsent g).2 := by
  refine .named _ fun g => ?_
  split
  · exact (Written.refl s).taken
  · split
    · exact .refl s
    · exact (modGate s g _).taken

theorem serveStopGate (s : State) (g : Nat) : Written s (s.serveStopGate g).2 := by
  refine .named _ fun g => ?_
  simp only
  split
  · exact .refl s
  · exact .refl s
  · exact .refl s
  · exact (State.touch_completeGranted (m := Eq g) _ _ _ _ _ _).written.taken
  · exact (s.touch_stopMove g).written.taken

theorem serveClearTrip (s : State) (g : Nat) : Written s (s.serveClearTrip g).2 := by
  refine .named _ fun g => ?_
  simp only
  split
  · exact .refl s
  · split
    · exact ((modGate s g GateRec.cleared).trans (Touch.openRound (m := Eq g) _).written).taken
    · exact .refl s
  · exact .refl s

theorem interfereIf (s : State) (old : Slot) (k : SlotNo) : Written s (s.interfereIf old k) :=
  ((s.touch_interfere (m := fun _ => True) k).written).ite (.refl s)

theorem servePostOrder (s : State) (k : Nat) (f : RawOrder) : Written s (s.servePostOrder k f).2 := by
  refine .checked _ fun _ => .named _ fun k => .named _ fun g => ?_
  have posted : Written s (s.postOrder k (orderOf f g)) :=
    ((State.touch_writeOrder _ _ _ _).trans (State.touch_handBackOf (m := fun _ => True) _ _)).written.trans
      (interfereIf _ _ _)
  simp only
  split
  · exact .refl s
  · split
    · exact .refl s
    · split
      · exact .refl s
      · split
        · exact .refl s
        · exact posted.taken

theorem serveWithdraw (s : State) (k : Nat) : Written s (s.serveWithdraw k).2 := by
  refine .named _ fun k => ?_
  have withdrawn : Written s (s.withdrawOrder k) :=
    ((State.touch_freeSlot _ _).trans (State.touch_handBackOf (m := fun _ => True) _ _)).written.trans
      (interfereIf _ _ _)
  split
  · exact (Written.refl s).taken
  · exact .refl s
  · exact withdrawn.taken

theorem serveReadSlot (s : State) (k : Nat) : Written s (s.serveReadSlot k).2 :=
  .named _ fun k =>
    (((s.touch_releaseOther (m := fun _ => True) k).written.trans (.takeLock _ k)).trans (.markRead _ k)).finish

theorem serveUnlock (s : State) (k : Nat) : Written s (s.serveUnlock k).2 := by
  refine .named _ fun k => ?_
  split
  · exact (s.touch_releaseLock (m := fun _ => True) k).written.taken
  · exact (Written.refl s).taken

theorem serveUnit (s : State) (u t : Nat) : Written s (s.serveUnit u t).2 :=
  .named _ fun u => .checked _ fun _ =>
    (s.touch_modUnit (m := fun _ => True) u (fun r => { r with idleTime := t }) fun _ h => h).written.taken

theorem serveService (s : State) (u v : Nat) : Written s (s.serveService u v).2 := by
  refine .named _ fun u => ?_
  have out : Written s (s.takeOut u .maintenance) := (s.touch_takeOut (m := fun _ => True) u _).written
  have back : Written s (s.returnUnit u) :=
    (((s.touch_modUnit (m := fun _ => True) u _ fun _ _ => rfl).trans (Touch.notify _ _)).trans
      (Touch.openRound _)).written
  split
  · unfold State.serveServiceOut
    split
    · exact out.taken
    · exact out.taken
    · exact (Written.refl s).taken
    · exact .refl s
  · unfold State.serveServiceIn
    split
    · split
      · exact .refl s
      · exact back.taken
    · exact (Written.refl s).taken
  · exact .refl s

theorem push (s : State) (g : GateNo) (l : List Point) : Written s (s.push g l) := by
  have appended : Written s (s.setQueue g ((s.queue g).appended l)) := .pushed s g l
  unfold State.push
  simp only
  generalize ht : (if (s.queue g).rises ((s.queue g).appended l).level = true then _ else _ : State) = t
  have told : Written s t := ht ▸ .ite (appended.trans (Touch.notify (m := Eq g) _ _).written) appended
  exact .ite (told.trans (State.touch_enterTravel _ g).written) told

theorem servePush (s : State) (g : Nat) (l : List RawPoint) : Written s (s.servePush g l).2 := by
  refine .checked _ fun _ => .named _ fun g => ?_
  split
  · exact .refl s
  · split
    · exact .refl s
    · exact .checked _ fun _ => (push s g _).finish

theorem servePeek (s : State) (g p n : Nat) : Written s (s.servePeek g p n).2 := by
  refine .checked _ fun _ => .named _ fun g => ?_
  simp only
  split
  · exact .refl s
  · exact .refl s

theorem serveQueue (s : State) (f : RawQueue) : Written s (s.serveQueue f).2 := by
  refine .checked _ fun pass => .named _ fun g => ?_
  simp only
  split
  · exact .refl s
  · next vacant =>
    split
    · exact .refl s
    · next apart => exact (Written.partitioned s g f pass vacant apart).taken

theorem serveFlush (s : State) (g : Nat) : Written s (s.serveFlush g).2 := by
  refine .named _ fun g => ?_
  split
  · exact .refl s
  · split
    · exact .refl s
    · exact (Written.flushed s g).taken

theorem serveLoadWindow (s : State) (f : RawWindow) : Written s (s.serveLoadWindow f).2 := by
  refine .checked _ fun _ => ?_
  split
  · exact (Written.stage s _).taken
  · exact .refl s

theorem serveDefine (s : State) (f : RawSequence) : Written s (s.serveDefine f).2 := by
  refine .checked _ fun _ => ?_
  split
  · exact .refl s
  · split
    · exact (Written.definition s _).taken
    · exact .refl s

theorem serveStart (s : State) : Written s s.serveStart.2 := by
  unfold State.serveStart
  split
  · exact .refl s
  · split
    · exact (s.touch_startSequence (m := fun _ => True) _).written.taken
    · exact .refl s

theorem serveStop (s : State) : Written s s.serveStop.2 := by
  unfold State.serveStop
  split
  · exact .refl s
  · exact (s.touch_stopRunner (m := fun _ => True)).written.taken

/-- Every request of a known kind (R208). -/
theorem serve (s : State) (r : Request) : Written s (s.serve r).2 := by
  cases r with
  | status => exact .link s _
  | setClock v => exact .clock s v
  | run => exact serveRun s
  | hold => exact serveHold s
  | stopAll => exact serveStopAll s
  | reset => exact (Written.refl s).taken
  | setNotices l => exact .checked _ fun _ => .link s _
  | configureGate g p f =>
    unfold State.serve
    simp only
    split
    · exact serveGateAbsent s g
    · exact serveGatePresent s g p f
  | configureUnit u t => exact serveUnit s u t
  | configureArbiter m => exact .named _ fun m => .arbitration s m
  | configureTide f => exact .checked _ fun _ => (Written.tideConfigured s f).taken
  | configureThreshold f => exact .checked _ fun _ => .named _ fun i => (Written.threshold s i _).taken
  | configureEnvelope b c => exact .checked _ fun _ => (Written.envelope s _).taken
  | configureQueue f => exact serveQueue s f
  | postOrder k f => exact servePostOrder s k f
  | withdrawOrder k => exact serveWithdraw s k
  | readSlot k => exact serveReadSlot s k
  | unlock k => exact serveUnlock s k
  | listSlots | readTide => exact .refl s
  | readGate | readQueue | readCells => exact .named _ fun _ => .refl s
  | stopGate g => exact serveStopGate s g
  | clearTrip g => exact serveClearTrip s g
  | setUnitService u v => exact serveService s u v
  | pushPoints g l => exact servePush s g l
  | peekPoints g p n => exact servePeek s g p n
  | flushPoints g => exact serveFlush s g
  | setLoadWindow f => exact serveLoadWindow s f
  | writeCells l => exact .checked _ fun _ => .stage s _
  | setStepDwell i d => exact .named _ fun i => .checked _ fun _ => (Written.stage s _).taken
  | defineSequence f => exact serveDefine s f
  | startSequence => exact serveStart s
  | stopSequence => exact serveStop s

/-! ### The link port -/

theorem reply (s : State) (idle : Bool) (r : Reply) : Written s (s.reply idle r) := by
  unfold State.reply
  split
  · exact (Written.link s _).trans (Touch.bump (m := fun _ => True) _).written
  · exact .link s _

theorem warmReset (s : State) (r : Reply) : Written s (s.warmReset r) := by
  have begun : Written s
      (((s.setLink { s.link with replies := [], notices := [] }).placeReply r).changeMode .resetting none .request) :=
    ((Written.link s _).trans (.link _ _)).trans (.kept (State.keptBM_changeMode _ _ _ _ rfl))
  have ended := (begun.trans (.kept (State.keptBM_resetBlocks _))).trans (.kept (State.keptBM_resetEndTest _))
  exact ended.trans ((Touch.markReport (m := fun _ => True) _ false).trans (State.touch_takeRound _)).written

theorem modeRefusal (s : State) (r : Request) (st : Status) : Written s (s.modeRefusal r st).2 := by
  unfold State.modeRefusal
  split
  · exact .refl s
  · exact .refl s
  · exact .refl s
  · exact .refl s

theorem whenRoom {f : State} (h : Written s f) : Written s (s.whenRoom f) := Written.ite (.link s _) h

theorem takeRequest (s : State) (n : Byte) (r : Request) : Written s (s.takeRequest n r) := by
  refine whenRoom ?_
  unfold State.takeKnown
  simp only
  split
  · exact (modeRefusal s r _).trans (reply _ _ _)
  · exact .ite (warmReset s _) ((serve s r).trans (reply _ _ _))

theorem takeFrame (s : State) (kind n : Byte) (body : List Byte) : Written s (s.takeFrame kind n body) := by
  have refused : ∀ st, Written s (s.refuseFrame n kind st) := fun st => whenRoom (.link s _)
  unfold State.takeFrame
  split
  · exact refused _
  · exact .ite (takeRequest s n _) (refused _)

/-- A byte from the host, with the request that it may complete (R197, R199). -/
theorem receive (s : State) (b : Byte) (stopHigh : Bool) : Written s (s.receive b stopHigh) := by
  have complete : ∀ l, Written s (s.completeFrame l) := fun l =>
    .ite ((Written.link s _).trans (takeFrame _ _ _ _)) (.link s _)
  unfold State.receive
  split
  · split
    · exact .link s _
    · exact .link s _
  · split
    · exact .ite (.link s _) (.refl s)
    · exact .ite (.link s _) (.ite (complete _) (.link s _))

theorem gapExpired (s : State) : Written s s.gapExpired := by
  unfold State.gapExpired
  split
  · exact .link s _
  · exact .refl s

theorem frameFinished (s : State) : Written s s.frameFinished := by
  unfold State.frameFinished
  split
  · exact .link s _
  · exact .refl s

/-! ### Field events -/

theorem pinEvent (s : State) (g : GateNo) (ch : Channel) (pos : PinPos) : Written s (s.pinEvent g ch pos) := by
  have put : Written s (s.setPinInput g ((s.pinInput g).put ch pos)) := .pinInput s g _
  exact .ite (.refl s) (.ite put (put.trans (State.touch_pinChanged _ _ _).written).finish)

theorem readyEvent (s : State) (u : UnitNo) (ready : Bool) : Written s (s.readyEvent u ready) := by
  have put : Written s (s.setUnitInput u { s.unitInput u with ready := ready }) := .unitInput s u _
  exact .ite (.refl s)
    (.ite put (.ite (put.trans (State.touch_unitReady (m := fun _ => True) _ u).written).finish put))

theorem faultEvent (s : State) (u : UnitNo) : Written s (s.faultEvent u) := by
  have put : Written s (s.setUnitInput u { s.unitInput u with fault := true }) := .unitInput s u _
  exact .ite (.refl s) (.ite put (put.trans (State.touch_faultAsserted _ u).written).finish)

theorem lineUpDone (s : State) (u : UnitNo) : Written s (s.lineUpDone u) := by
  unfold State.lineUpDone
  split
  · exact (s.touch_linedUp u _ _).written
  · exact .refl s

theorem linedEvent (s : State) (u : UnitNo) (lined : Bool) : Written s (s.linedEvent u lined) := by
  have put : Written s (s.setUnitInput u { s.unitInput u with lined := lined }) := .unitInput s u _
  exact .ite (.refl s) (.ite put (.ite (put.trans (lineUpDone _ u)).finish put))

/-- The hand-over of an arrival to the envelope unit and the order table (R114, R131). -/
theorem afterTide {res : Tide × List TideEvent × HeadChange} (h : Written s (s.setTide res.1)) :
    Written s (s.afterTide res) :=
  (h.trans (.kept (State.keptBM_handOver _ _))).trans
    (Touch.foldl (fun s e => s.touch_handEvent e) _ _).written

theorem gaugeSilence (s : State) (g : Gauge) : Written s (s.gaugeSilence g) := by
  unfold State.gaugeSilence
  split
  · exact afterTide (.tideSilent s g)
  · exact .refl s

/-! ### The step -/

/-- An event is run to its end, or ignored while the reset line is held (R185). -/
theorem event {f : State → State} (hf : Written s (f s)) (h : event s f = .next t) : Written s t := by
  cases h
  exact .ite (.refl s) hf.finish

theorem simple {f : State → State} (hf : Written s (f s)) (h : simple s f = .next t) : Written s t := by
  cases h
  exact .ite (.refl s) hf

theorem request {n : Byte} {r : Request} (h : request s n r = .next t) : Written s t := by
  cases h
  exact .ite (.refl s) (takeRequest s n r)

/-- Every command. -/
theorem exec {i : Instr} (h : exec i s = .next t) : Written s t := by
  cases i with
  | resetLineAsserted =>
    cases h
    exact .lineAsserted s
  | coldReset strap =>
    cases h
    exact .coldReset s strap
  | weirClockTick => exact .simple (f := fun s => { s with clock := s.clock + 1 }) (.clock s _) h
  | receivedByte b stopHigh => exact .simple (f := fun s => s.receive b stopHigh) (receive s b stopHigh) h
  | gapTimerExpiry => exact .simple (gapExpired s) h
  | frameFinished => exact .simple (frameFinished s) h
  | status | setClock | run | hold | stopAll | reset | setNotices | configureGatePresent | configureGateAbsent
  | configureUnit | configureArbiter | configureTide | configureThreshold | configureEnvelope | configureQueue
  | postOrder | withdrawOrder | readSlot | unlock | listSlots | readGate | stopGate | clearTrip | setUnitServiceOut
  | setUnitServiceIn | readTide | pushPoints | peekPoints | flushPoints | readQueue | setLoadWindow | writeCells
  | setStepDwell | readCells | defineSequence | startSequence | stopSequence => exact request h
  | encoderSample g ch count pressure elapsed =>
    exact .event (f := fun s => s.encoderSample g ch count pressure elapsed)
      (s.touch_encoderSample g ch count pressure elapsed).written h
  | encoderSilenceExpiry g e => exact .event (f := fun s => s.encoderSilence g e) (s.touch_encoderSilence g e).written h
  | lockPinFeedback g ch pos =>
    cases h
    exact pinEvent s g ch pos
  | releaseTimerExpiry g => exact .event (s.touch_releaseExpired g).written h
  | buildTimerExpiry g => exact .event (s.touch_buildExpired g).written h
  | stallTimerExpiry g e => exact .event (s.touch_stallExpired g e).written h
  | settleTimerExpiry g => exact .event (s.touch_settleExpired g).written h
  | lockTimerExpiry g => exact .event (s.touch_lockExpired g).written h
  | tripLockTimerExpiry g => exact .event (s.touch_tripLockExpired g).written h
  | holdTimerExpiry g => exact .event (s.touch_holdExpired g).written h
  | readyChange u ready =>
    cases h
    exact readyEvent s u ready
  | faultAssertion u =>
    cases h
    exact faultEvent s u
  | faultClearing u =>
    cases h
    exact .unitInput s u _
  | linedUpChange u lined =>
    cases h
    exact linedEvent s u lined
  | startTimerExpiry u =>
    exact .event (f := fun s => s.startExpired u)
      (.ite (s.touch_startFailed (m := fun _ => True) u).written (.refl s)) h
  | lineUpTimerExpiry u =>
    exact .event (f := fun s => s.lineUpExpired u)
      (.ite (s.touch_lineUpFailed (m := fun _ => True) u).written (.refl s)) h
  | idleTimerExpiry u =>
    have off : Touch (fun _ => True) s (s.idleStopped u) := State.touch_modUnit s u _ fun _ _ => rfl
    exact .event (f := fun s => s.idleExpired u) (.ite off.written (.refl s)) h
  | gaugeSample g x => exact .event (f := fun s => s.gaugeSample g x) (afterTide (.tideSampled s g x)) h
  | gaugeSilenceExpiry g => exact .event (f := fun s => s.gaugeSilence g) (gaugeSilence s g) h
  | postingAttempt => exact .event (State.touch_dueAttempt (m := fun _ => True) s).written h
  | runnerCollection k => exact .event (State.touch_collect (m := fun _ => True) s k).written h
  | dwellTimerExpiry => exact .event (State.touch_dwellEvent (m := fun _ => True) s).written h

/-- Every step (log 1). -/
theorem step (h : step s = .next t) : Written s t := by
  unfold Machine.step at h
  split at h
  · cases h
    exact .refl s
  · next i rest _ => exact (Written.dequeued s rest).trans (exec h)

end Written

/-! ### The laws of the order table -/

theorem State.slot_coldReset (s : State) (strap : LinkRate) (k : SlotNo) : (s.coldReset strap).slot k = Slot.empty := by
  simp [State.coldReset, State.slot, State.coldValues, State.notify, State.setLink, Vector.get_eq_getElem]

/-- An empty slot has no marks to clear (R48, R63). -/
theorem Slot.markRead_empty : Slot.empty.markRead = Slot.empty := rfl

theorem Written.freeEmpty {s t : State} (w : Written s t) (ok : FreeEmpty s) : FreeEmpty t := by
  induction w with
  | trans _ _ first second => exact second (first ok)
  | kept h => exact h.free ok
  | takeLock s k =>
    unfold State.takeLock
    simp only
    split
    · exact ok
    · exact ok
  | markRead s k =>
    refine s.free_setSlot (fun st => ?_) ok
    rw [ok k st, Slot.markRead_empty]
  | coldReset s strap => exact fun k _ => s.slot_coldReset strap k
  | _ => exact ok

theorem Written.lockLawful {s t : State} (w : Written s t) (ok : LockLawful s) : LockLawful t := by
  induction w with
  | trans _ _ first second => exact second (first ok)
  | kept h => exact h.locked ok
  | takeLock s k =>
    unfold State.takeLock
    simp only
    split
    · next h =>
      intro j locked
      have e : k = j := Option.some.inj (beq_iff_eq.1 locked)
      exact e ▸ h.2
    · exact ok
  | markRead s k => exact s.lawful_setSlot ok fun locked => ok k (beq_iff_eq.2 locked)
  | coldReset s strap => exact State.locked_none rfl
  | _ => exact ok

end Sys2Proof.Machine

namespace Sys2Proof.Proofs

open Sys2Proof.Machine Sys2Proof.Safety

/-- Settles O54: every step is a run of writes, each of which keeps both laws. -/
theorem stepKeepsTableLawful : Obligations.StepKeepsTableLawful := by
  unfold Obligations.StepKeepsTableLawful
  exact ⟨fun _ _ ok h => (Written.step h).freeEmpty ok, fun _ _ ok h => (Written.step h).lockLawful ok⟩

end Sys2Proof.Proofs
end

section
/-! Grant rounds and the operations of the order table on one slot (chapters 3 and 4), said once each: what a round
leaves alone, and what writing and freeing a slot leave. -/

namespace Sys2Proof.Machine

open Sys2Proof.Safety

/-! ### What a round leaves alone (R56, R76 to R85) -/

/-- The slot waits for a grant or for its unit (R48). -/
def Slot.Waiting (r : Slot) : Prop := r.state = .pending ∨ r.state = .granted

/-- A slot before and after a round: as it was, or moved between PENDING and GRANTED with unit and grant time. -/
def Regranted (a b : Slot) : Prop :=
  b = a ∨ a.Waiting ∧ b.Waiting ∧ b = { a with state := b.state, unit := b.unit, grantTime := b.grantTime }

theorem Regranted.refl (a : Slot) : Regranted a a := .inl rfl

theorem Regranted.trans {a b c : Slot} (h : Regranted a b) (k : Regranted b c) : Regranted a c := by
  obtain rfl | ⟨wb, wc, ec⟩ := k
  · exact h
  · obtain rfl | ⟨wa, _, eb⟩ := h
    · exact .inr ⟨wb, wc, ec⟩
    · rw [eb] at ec
      exact .inr ⟨wa, wc, ec⟩

theorem Regranted.grantedBy {a : Slot} (h : a.state = .pending) (u : UnitNo) (t : Clock) :
    Regranted a (a.grantedBy u t) :=
  .inr ⟨.inl h, .inr rfl, rfl⟩

theorem Regranted.returned {a : Slot} (h : a.state = .granted) : Regranted a a.returned :=
  .inr ⟨.inr h, .inl rfl, rfl⟩

/-- A waiting slot keeps its order, its report and its deferred trigger, and waits on. -/
theorem Regranted.of_waiting {a b : Slot} (h : Regranted a b) (w : a.Waiting) :
    b.Waiting ∧ b.order = a.order ∧ b.report = a.report ∧ b.deferred = a.deferred := by
  obtain rfl | ⟨_, wb, eb⟩ := h
  · exact ⟨w, rfl, rfl, rfl⟩
  · exact ⟨wb, by rw [eb], by rw [eb], by rw [eb]⟩

/-- A slot that does not wait stays. -/
theorem Regranted.of_not_waiting {a b : Slot} (h : Regranted a b) (w : ¬a.Waiting) : b = a :=
  h.resolve_right fun k => w k.1

/-- Between `s` and `t` a round may have been taken: mode, gates, tide monitor, runner and lock stand, and each slot is
as it was or has moved between PENDING and GRANTED. -/
structure Rounded (s t : State) : Prop where
  mode : t.mode = s.mode
  gates : t.gates = s.gates
  tide : t.tide = s.tide
  runner : t.runner = s.runner
  lock : t.lock = s.lock
  slot : ∀ k, Regranted (s.slot k) (t.slot k)

/-- The operations that write neither of these. -/
theorem Rounded.of_same {s t : State} (mode : t.mode = s.mode) (gates : t.gates = s.gates) (tide : t.tide = s.tide)
    (runner : t.runner = s.runner) (lock : t.lock = s.lock) (slots : t.slots = s.slots) : Rounded s t :=
  ⟨mode, gates, tide, runner, lock, fun k => .inl (congrArg (fun v => v.get k) slots)⟩

theorem Rounded.refl (s : State) : Rounded s s := .of_same rfl rfl rfl rfl rfl rfl

theorem Rounded.trans {s t u : State} (h : Rounded s t) (k : Rounded t u) : Rounded s u :=
  ⟨k.mode.trans h.mode, k.gates.trans h.gates, k.tide.trans h.tide, k.runner.trans h.runner, k.lock.trans h.lock,
    fun j => (h.slot j).trans (k.slot j)⟩

namespace State

variable {s : State}

theorem rounded_setSlot {k : SlotNo} {r : Slot} (h : Regranted (s.slot k) r) : Rounded s (s.setSlot k r) := by
  refine ⟨rfl, rfl, rfl, rfl, rfl, fun j => ?_⟩
  by_cases e : k = j
  · subst e
    rw [slot_setSlot_self]
    exact h
  · rw [slot_setSlot_ne s r e]
    exact .refl _

theorem rounded_openRound (s : State) : Rounded s s.openRound := .of_same rfl rfl rfl rfl rfl rfl

theorem rounded_modUnit (s : State) (u : UnitNo) (f : PowerUnit → PowerUnit) : Rounded s (s.modUnit u f) :=
  .of_same rfl rfl rfl rfl rfl rfl

theorem rounded_setStartQueue (s : State) (q : List UnitNo) : Rounded s (s.setStartQueue q) :=
  .of_same rfl rfl rfl rfl rfl rfl

theorem rounded_takeOut (s : State) (u : UnitNo) (c : OutCause) : Rounded s (s.takeOut u c) :=
  .of_same rfl rfl rfl rfl rfl rfl

theorem rounded_returnGrant (s : State) (k : SlotNo) : Rounded s (s.returnGrant k) := by
  unfold returnGrant
  split
  · next h => exact (rounded_setSlot (.returned h)).trans (rounded_openRound _)
  · exact .refl s

theorem rounded_passStarter (l : List UnitNo) (s : State) : Rounded s (State.passStarter l s) := by
  induction l generalizing s with
  | nil => exact s.rounded_setStartQueue []
  | cons u l ih =>
    unfold passStarter
    split
    · have passed : Rounded s (State.passStarter l (s.takeOut u .fault)) := (s.rounded_takeOut u _).trans (ih _)
      cases (s.unit u).slot with
      | none => exact passed
      | some k => exact passed.trans (rounded_returnGrant _ k)
    · exact (s.rounded_setStartQueue l).trans (rounded_modUnit _ u _)

theorem rounded_grantUnit (s : State) (u : UnitNo) (k : SlotNo) (g : GateNo) : Rounded s (s.grantUnit u k g) := by
  unfold grantUnit
  split
  · unfold requestStart
    split
    · exact s.rounded_modUnit u _
    · exact (s.rounded_modUnit u _).trans (rounded_setStartQueue _ _)
    · exact ((s.rounded_takeOut u _).trans (rounded_passStarter _ _)).trans (rounded_returnGrant _ k)
    · exact (s.rounded_takeOut u _).trans (rounded_returnGrant _ k)
  · exact s.rounded_modUnit u _
  · exact .refl s

theorem rounded_passes (n : Nat) (s : State) : Rounded s (State.passes n s) := by
  induction n generalizing s with
  | zero => exact .refl s
  | succ n ih =>
    unfold passes
    split
    · exact .refl s
    · next k g u h =>
      have granted := rounded_setSlot (.grantedBy (s.pending_choice k g u h) u s.clock)
      exact (granted.trans (rounded_grantUnit _ u k g)).trans (ih _)

/-- An event that has brought about no report ends with its round (R78). -/
theorem finish_of_no_report (h : s.marks.reportDue = false) : s.finish = s.takeRound := by
  unfold finish takeReport
  rw [h]
  rfl

theorem rounded_finish (h : s.marks.reportDue = false) : Rounded s s.finish := by
  have closed : Rounded (State.passes 3 s) (State.passes 3 s).closeRound := .of_same rfl rfl rfl rfl rfl rfl
  rw [finish_of_no_report h]
  unfold takeRound
  split
  · exact (s.rounded_passes 3).trans closed
  · exact .refl s

theorem rounded_reply (s : State) (idle : Bool) (r : Reply) : Rounded s (s.reply idle r) := by
  unfold reply
  split
  · exact .of_same rfl rfl rfl rfl rfl rfl
  · exact .of_same rfl rfl rfl rfl rfl rfl

/-- Outside RUN no slot is eligible (R79, condition 2), and a round grants nothing. -/
theorem choice_of_not_run (h : s.mode ≠ .run) : s.choice = none := by
  have eligible : ∀ k, s.eligible k = false := by
    intro k
    unfold State.eligible
    split
    · rfl
    · simp [h]
  have winner : s.winner = none := by
    have no : allSlots.filter s.eligible = [] := by simp [eligible]
    unfold State.winner
    simp only [no]
    split <;> rfl
  unfold choice
  rw [winner]

/-- An event that has opened a round ends as it stands outside RUN (R78, R79). -/
theorem finish_openRound_of_not_run (h : s.mode ≠ .run) (m : MarksClear s) : s.openRound.finish = s := by
  have clear : s.marks = ⟨false, false⟩ := m
  have passes : State.passes 3 s.openRound = s.openRound := by
    unfold State.passes
    rw [choice_of_not_run (s := s.openRound) h]
  have marks : (⟨false, s.marks.reportDue⟩ : Marks) = s.marks := by rw [clear]
  have closed : s.openRound.closeRound = s := congrArg (fun x => ({ s with marks := x } : State)) marks
  rw [finish_of_no_report (by simp [clear]), takeRound, passes, closed]
  exact if_pos rfl

/-! ### Writing and freeing a slot (R48, R50, R51) -/

/-- Slot `k` replaced by `r`, its lock released without acting on a deferred trigger (R50, R51). -/
def rewritten (s : State) (k : SlotNo) (r : Slot) : State :=
  { s with lock := if s.lock = some k then none else s.lock }.setSlot k r

theorem dropLock_setSlot (s : State) (k : SlotNo) (r : Slot) : (s.setSlot k r).dropLock k = s.rewritten k r := by
  unfold dropLock rewritten
  rw [lock_setSlot]
  split
  · rfl
  · rfl

theorem rewritten_of_unlocked {k : SlotNo} (r : Slot) (h : s.lock ≠ some k) : s.rewritten k r = s.setSlot k r := by
  unfold rewritten
  rw [if_neg h]

theorem slot_rewritten (s : State) (k j : SlotNo) (r : Slot) :
    (s.rewritten k r).slot j = if k = j then r else s.slot j := slot_setSlot _ k j r

/-- No slot waits once slot `k`, the last that might, has left PENDING. -/
theorem noneWaits_rewritten {k : SlotNo} {r : Slot} (h : NoneWaits s) (st : r.state ≠ .pending) :
    NoneWaits (s.rewritten k r) := by
  intro j
  rw [slot_rewritten]
  split
  · exact st
  · exact h j

theorem noneWaits_abandons (h : NoneWaits s) (u : UnitNo) : NoneWaits (abandons s u) := h

/-- A triggered order is ARMED as it is written (R50). -/
theorem writeOrder_of_trigger (s : State) (k : SlotNo) {o : Order} (h : o.trigger.isSome = true) :
    s.writeOrder k o .host = s.rewritten k { Slot.empty with state := .armed, order := some o } := by
  unfold writeOrder Slot.written
  rw [h, if_pos rfl, if_pos rfl]
  exact s.dropLock_setSlot k _

/-- An order without a trigger is PENDING as it is written, and opens a round (R50, R70). -/
theorem writeOrder_of_no_trigger (s : State) (k : SlotNo) {o : Order} (h : o.trigger = none) :
    s.writeOrder k o .host = (s.rewritten k { Slot.empty with state := .pending, order := some o }).openRound := by
  unfold writeOrder Slot.written
  rw [h]
  exact congrArg State.openRound (s.dropLock_setSlot k _)

/-- A posting attempt called for where the runner waits for the window of slot `k` (R173). -/
def attemptCalled (s : State) (k : SlotNo) : State :=
  { s with runner := { s.runner with attemptsDue := s.runner.attemptsDue + if s.awaited k then 1 else 0 } }

/-- A freed slot is empty and may call for a posting attempt (R48, R173). -/
theorem freeSlot_eq (s : State) (k : SlotNo) : s.freeSlot k = (s.attemptCalled k).rewritten k Slot.empty := by
  unfold freeSlot
  rw [s.dropLock_setSlot k]
  unfold attemptCalled
  simp only
  split
  · rfl
  · rfl

/-! ### The grant and the owner of the slot that is written over (R52, R57, R87) -/

/-- A round that is open stays open (R78). -/
theorem openRound_abandons_openRound (s : State) (u : UnitNo) :
    (abandons s.openRound u).openRound = (abandons s u).openRound := rfl

theorem handBackOf_of_not_granted (s : State) {old : Slot} (h : old.state ≠ .granted) : s.handBackOf old = s := by
  unfold handBackOf
  split
  · next st _ => exact absurd st h
  · next st _ => exact absurd st h
  · rfl

theorem handBackOf_of_granted (s : State) {old : Slot} {u : UnitNo} (h : old.state = .granted)
    (hu : old.unit = some u) : s.handBackOf old = (abandons s u).openRound := by
  unfold handBackOf
  rw [h, hu]
  exact s.handBack_eq u

/-- An abandoned grant writes units and start queue alone, and opens a round (R57, R87). -/
theorem handBackOf_granted_opens (s : State) {old : Slot} (h : old.state = .granted) :
    ∃ t : State, s.handBackOf old = t.openRound ∧ t.marks = s.marks ∧ t.slots = s.slots ∧ t.gates = s.gates ∧
      t.tide = s.tide ∧ t.mode = s.mode := by
  cases unit : old.unit with
  | none =>
    refine ⟨s, ?_, rfl, rfl, rfl, rfl, rfl⟩
    unfold handBackOf
    rw [h, unit]
  | some u => exact ⟨abandons s u, s.handBackOf_of_granted h unit, rfl, rfl, rfl, rfl, rfl⟩

/-- Writing or freeing a slot of the host tells the runner nothing (R52). -/
theorem interfereIf_of_host (s : State) {old : Slot} (k : SlotNo) (h : old.owner = .host) :
    s.interfereIf old k = s := by
  have no : old.ofRunner = false := by
    unfold Slot.ofRunner
    rw [h]
    rfl
  unfold interfereIf
  rw [no]
  rfl

/-! ### The end of a sequence (R179, R180) -/

/-- In WINDING_DOWN with an empty outstanding list the sequence ends with the outcome recorded for it (R180). -/
theorem endIfEmpty_of_empty {o : EndOutcome} (st : s.runner.state = .windingDown) (out : s.runner.outstanding = [])
    (ending : s.runner.endOutcome = some o) : s.endIfEmpty = s.endSequence o := by
  unfold endIfEmpty
  rw [if_pos ⟨st, out⟩, ending]
  rfl

/-- The sequence goes on while a slot is outstanding (R180). -/
theorem endIfEmpty_of_outstanding (out : s.runner.outstanding ≠ []) : s.endIfEmpty = s := if_neg fun h => out h.2

/-- Entry to WINDING_DOWN with nothing outstanding ends the sequence (R180). -/
theorem windDown_of_empty (o : EndOutcome) (c : Option FailCause) (k : Option SlotNo)
    (out : s.runner.outstanding = []) :
    s.windDown o c k = (s.setRunner .idle).notify
      (.sequenceEnd o (s.runner.step.getD 0) (s.runner.pass.getD 0) c k s.clock) := by
  have nothing : (s.modRunner fun r => r.toWinding o c k).runner.outstanding = [] := out
  unfold windDown
  simp only [nothing, List.map_nil, List.foldl_nil]
  exact endIfEmpty_of_empty rfl nothing rfl

end State

/-! ### Requests that open a round -/

@[simp] theorem slotOf_val (k : SlotNo) : slotOf k.val = some k := dif_pos k.isLt

/-- A request taken with OK leaves the state at the end of its event (R78, R205). -/
theorem State.taken_of_finish {s t : State} (h : s.finish = t) : s.taken = (.ok [], t) := by
  unfold State.taken
  rw [h]

/-- A request that passes the mode test is answered in the state its owning block leaves (R192, R199, R201). -/
theorem request_replied {s s' : State} {n : Byte} {r : Request} {a : Answer} (l : Listening s)
    (mode : s.modeTest r = none) (ne : r ≠ .reset) (serve : s.serve r = (a, s')) :
    request s n r = .next (s'.reply s.link.line.isNone (a.reply n (BitVec.ofNat 8 (codeOf r)))) := by
  have room : ¬2 ≤ s.link.replies.length := Nat.not_le.2 l.2
  unfold request State.takeRequest State.whenRoom State.takeKnown
  simp only [l.1, room, mode, ne, serve, Bool.false_eq_true, if_false]

/-- A request that is answered OK (R205). -/
theorem request_answered {s s' : State} {n : Byte} {r : Request} {data : List Byte} (l : Listening s)
    (mode : s.modeTest r = none) (ne : r ≠ .reset) (serve : s.serve r = (.ok data, s')) :
    request s n r = .next (s'.reply s.link.line.isNone (okReply n (BitVec.ofNat 8 (codeOf r)) data)) :=
  request_replied l mode ne serve

/-- A request whose round may grant: what its own writes left outside the units, the line and the waiting slots
stands. -/
theorem request_rounded {s s' : State} {n : Byte} {r : Request} {a : Answer} (l : Listening s)
    (mode : s.modeTest r = none) (ne : r ≠ .reset) (serve : s.serve r = (a, s'.openRound.finish)) (m : MarksClear s') :
    ∃ t, request s n r = .next t ∧ Rounded s' t := by
  have clear : s'.marks = ⟨false, false⟩ := m
  have finished : Rounded s'.openRound s'.openRound.finish := State.rounded_finish (by simp [clear])
  exact ⟨_, request_replied l mode ne serve, (s'.rounded_openRound.trans finished).trans (State.rounded_reply _ _ _)⟩

end Sys2Proof.Machine
end

section
/-! POST_ORDER, WITHDRAW_ORDER and UNLOCK (R50 to R52, R64, R65, R70, R87). -/

namespace Sys2Proof.Machine

open Sys2Proof.Safety

/-! ### POST_ORDER -/

theorem orderOf_trigger_isSome {f : RawOrder} (g : GateNo) (h : f.triggerPresence = 1) :
    (orderOf f g).trigger.isSome = true := by
  simp [orderOf, triggerOf, h]

theorem orderOf_trigger_none {f : RawOrder} (g : GateNo) (h : f.triggerPresence = 0) : (orderOf f g).trigger = none :=
  if_pos h

/-- OVERRIDE is the envelope rule of code 2 alone (R207). -/
theorem ruleOf_eq_override {n : Nat} (h : ruleOf n = some .override) : n = 2 := by
  unfold ruleOf at h
  split at h
  · cases h
  · cases h
  · rfl
  · cases h

section

variable {s : State} {n : Byte} {k : SlotNo} {g : GateNo} {f : RawOrder}

/-- What the checks of R49 and R50 ask of a POST_ORDER for slot `k` and gate `g`, that slot `k` is not RUNNING apart. -/
structure OrderPasses (s : State) (k : SlotNo) (g : GateNo) (f : RawOrder) : Prop where
  fields : firstBad (orderChecks k.val f) = none
  gate : f.gate = g.val
  present : (s.gate g).state ≠ .absent
  target : ¬(f.kind = 0 ∧ (s.gate g).params.openingMax < f.target)
  rule : ¬(f.rule = 2 ∧ (s.gate g).params.overrideAllowed = false)

/-- A POST_ORDER that passes its checks is taken (R49, R50). -/
theorem OrderPasses.serve (pass : OrderPasses s k g f) (st : (s.slot k).state ≠ .running) :
    s.serve (.postOrder k.val f) = (s.postOrder k (orderOf f g)).taken := by
  have rule : ¬(ruleOf f.rule = some .override ∧ (s.gate g).params.overrideAllowed = false) :=
    fun h => pass.rule ⟨ruleOf_eq_override h.1, h.2⟩
  rw [State.serve, State.servePostOrder, s.checked_pass _ pass.fields, slotOf_val, State.named_some, pass.gate,
    gateOf_val, State.named_some]
  simp only [pass.present, pass.target, rule, st, if_false]

/-- An order over a slot of the host that holds no grant is written and nothing more (R50). -/
theorem State.postOrder_of_host (o : Order) (st : (s.slot k).state ≠ .granted) (owner : (s.slot k).owner = .host) :
    s.postOrder k o = s.writeOrder k o .host := by
  unfold State.postOrder
  rw [State.interfereIf_of_host _ _ owner, State.handBackOf_of_not_granted _ st]

/-- An order over a GRANTED slot of the host abandons the grant (R57, R87). -/
theorem State.postOrder_of_granted (o : Order) {u : UnitNo} (st : (s.slot k).state = .granted)
    (owner : (s.slot k).owner = .host) (unit : (s.slot k).unit = some u) :
    s.postOrder k o = (abandons (s.writeOrder k o .host) u).openRound := by
  unfold State.postOrder
  rw [State.interfereIf_of_host _ _ owner, State.handBackOf_of_granted _ st unit]

/-- Interference with the one outstanding slot of a runner in STEP ends the sequence FAILED (R52, R179, R180). -/
theorem State.interfere_of_last {h : GateNo} (st : s.runner.state = .step) (out : s.runner.outstanding = [(k, h)]) :
    s.interfere k = (s.setRunner .idle).notify
      (.sequenceEnd .failed (s.runner.step.getD 0) (s.runner.pass.getD 0) (some .interfered) (some k) s.clock) := by
  have has : s.runner.has k = true := by simp [Runner.has, out]
  have alone : (s.runner.remove k).outstanding = [] := by simp [Runner.remove, out]
  have step : (s.modRunner fun r => r.remove k).runner.state = .step := st
  unfold State.interfere
  rw [has, if_pos rfl]
  simp only [step]
  exact State.windDown_of_empty _ _ _ alone

/-- An order over the one outstanding slot of a runner in STEP ends the sequence (R50, R52). -/
theorem State.postOrder_of_last (o : Order) {h : GateNo} (owner : (s.slot k).owner = .sequence)
    (held : (s.slot k).state = .pending ∨ (s.slot k).state = .done) (trigger : o.trigger.isSome = true)
    (st : s.runner.state = .step) (out : s.runner.outstanding = [(k, h)]) :
    s.postOrder k o =
      (((s.rewritten k { Slot.empty with state := .armed, order := some o }).setRunner .idle).notify
        (.sequenceEnd .failed (s.runner.step.getD 0) (s.runner.pass.getD 0) (some .interfered) (some k) s.clock)) := by
  have ofRunner : (s.slot k).ofRunner = true := by
    unfold Slot.ofRunner
    obtain e | e := held <;> rw [owner, e] <;> rfl
  have granted : (s.slot k).state ≠ .granted := by
    obtain e | e := held <;> rw [e] <;> simp
  unfold State.postOrder State.interfereIf
  simp only
  rw [State.handBackOf_of_not_granted _ granted, ofRunner, if_pos rfl, State.writeOrder_of_trigger _ _ trigger]
  exact State.interfere_of_last (s := s.rewritten k _) st out

end

/-! ### WITHDRAW_ORDER -/

/-- WITHDRAW_ORDER of a slot that is neither FREE nor RUNNING is taken (R51). -/
theorem State.serveWithdraw_taken {s : State} {k : SlotNo} (free : (s.slot k).state ≠ .free)
    (running : (s.slot k).state ≠ .running) :
    s.serve (.withdrawOrder k.val) = (s.withdrawOrder k).taken := by
  rw [State.serve, State.serveWithdraw, slotOf_val, State.named_some]
  split
  · next h => exact absurd h free
  · next h => exact absurd h running
  · rfl

end Sys2Proof.Machine

namespace Sys2Proof.Proofs

open Sys2Proof.Machine Sys2Proof.Safety

/-- Settles O19: by the state and the owner of the slot written over, and by the trigger. -/
theorem postOrderWritesSlot : Obligations.PostOrderWritesSlot := by
  unfold Obligations.PostOrderWritesSlot
  intro n k g f s l m written mode fields gate present target rule
  have pass : OrderPasses s k g f := ⟨fields, gate, present, target, rule⟩
  have test : s.modeTest (.postOrder k.val f) = none := State.modeTest_of_anyMode mode rfl (by simp)
  refine ⟨fun running granted owner => ⟨fun trigger => ?armed, fun no run => ?pending, fun no run => ?round⟩,
    fun u granted owner unit => ⟨fun trigger idle => ?abandoned, fun no => ?reopened⟩,
    fun h owner held step out trigger => ?interfered⟩
  case armed =>
    have serve := pass.serve running
    rw [State.postOrder_of_host _ granted owner,
      State.writeOrder_of_trigger _ _ (orderOf_trigger_isSome g trigger)] at serve
    exact request_served l test (by simp) (serve.trans (State.taken_of_marksClear m)) rfl
  case pending =>
    have serve := pass.serve running
    rw [State.postOrder_of_host _ granted owner,
      State.writeOrder_of_no_trigger _ _ (orderOf_trigger_none g no)] at serve
    have ends := State.taken_of_finish (State.finish_openRound_of_not_run (s := written .pending) run m)
    exact request_served l test (by simp) (serve.trans ends) rfl
  case round =>
    have serve := pass.serve running
    rw [State.postOrder_of_host _ granted owner,
      State.writeOrder_of_no_trigger _ _ (orderOf_trigger_none g no)] at serve
    obtain ⟨t, ht, after⟩ := request_rounded l test (by simp) serve m
    have slot := after.slot k
    rw [State.slot_rewritten, if_pos rfl] at slot
    obtain ⟨waiting, order, report, _⟩ := slot.of_waiting (.inl rfl)
    exact ⟨t, ht, after.gates, after.tide, after.runner, order, report, waiting⟩
  case abandoned =>
    have serve := pass.serve (by simp [granted])
    rw [State.postOrder_of_granted _ granted owner unit,
      State.writeOrder_of_trigger _ _ (orderOf_trigger_isSome g trigger)] at serve
    have waits : NoneWaits (written .armed) := State.noneWaits_rewritten idle (by simp)
    have ends := State.taken_of_finish (State.finish_openRound_of_noneWaits (State.noneWaits_abandons waits u) m)
    exact request_served l test (by simp) (serve.trans ends) rfl
  case reopened =>
    have serve := pass.serve (by simp [granted])
    rw [State.postOrder_of_granted _ granted owner unit,
      State.writeOrder_of_no_trigger _ _ (orderOf_trigger_none g no), State.openRound_abandons_openRound] at serve
    exact request_answered l test (by simp) serve
  case interfered =>
    have running : (s.slot k).state ≠ .running := by
      obtain e | e := held <;> rw [e] <;> simp
    have serve := pass.serve running
    rw [State.postOrder_of_last _ owner held (orderOf_trigger_isSome g trigger) step out] at serve
    exact request_answered l test (by simp) (serve.trans (State.taken_of_marksClear m))

/-- Settles O20: by the state of the slot. -/
theorem withdrawFreesSlot : Obligations.WithdrawFreesSlot := by
  unfold Obligations.WithdrawFreesSlot
  intro n k s l m mode
  have test : s.modeTest (.withdrawOrder k.val) = none := State.modeTest_of_anyMode mode rfl (by simp)
  have serve : (s.slot k).state ≠ .free → (s.slot k).state ≠ .running → (s.slot k).owner = .host →
      s.serve (.withdrawOrder k.val) = ((s.freeSlot k).handBackOf (s.slot k)).taken := by
    intro free running owner
    rw [State.serveWithdraw_taken free running, State.withdrawOrder, State.interfereIf_of_host _ _ owner]
  refine ⟨fun st => ?free, fun st => ?running, fun st owner => ?freed, fun granted owner => ?granted,
    fun u granted owner unit idle => ?abandoned⟩
  case free =>
    have taken : s.serve (.withdrawOrder k.val) = s.taken := by
      rw [State.serve, State.serveWithdraw, slotOf_val, State.named_some, st]
    exact request_served l test (by simp) (taken.trans (State.taken_of_marksClear m)) rfl
  case running =>
    have refused : s.serve (.withdrawOrder k.val) = s.refuse .slotBusy := by
      rw [State.serve, State.serveWithdraw, slotOf_val, State.named_some, st]
    exact request_served l test (by simp) refused rfl
  case freed =>
    have other : (s.slot k).state ≠ .free ∧ (s.slot k).state ≠ .running ∧ (s.slot k).state ≠ .granted := by
      obtain e | e | e := st <;> rw [e] <;> simp
    have serve := serve other.1 other.2.1 owner
    rw [State.handBackOf_of_not_granted _ other.2.2, State.freeSlot_eq] at serve
    exact request_served l test (by simp) (serve.trans (State.taken_of_marksClear m)) rfl
  case granted =>
    have serve := serve (by simp [granted]) (by simp [granted]) owner
    obtain ⟨s', eq, marks, slots, gates, tide, mode⟩ := (s.freeSlot k).handBackOf_granted_opens granted
    rw [State.freeSlot_eq] at eq marks slots gates tide mode
    rw [State.freeSlot_eq, eq] at serve
    obtain ⟨t, ht, after⟩ := request_rounded l test (by simp) serve (marks.trans m)
    have slot : s'.slot k = Slot.empty :=
      (congrArg (fun v => v.get k) slots).trans ((State.slot_rewritten _ k k _).trans (if_pos rfl))
    have freed : t.slot k = s'.slot k := (after.slot k).of_not_waiting (by simp [slot, Slot.Waiting, Slot.empty])
    exact ⟨t, ht, freed.trans slot, after.gates.trans gates, after.tide.trans tide, after.mode.trans mode⟩
  case abandoned =>
    have serve := serve (by simp [granted]) (by simp [granted]) owner
    rw [State.handBackOf_of_granted _ granted unit, State.freeSlot_eq] at serve
    have waits : NoneWaits ((s.attemptCalled k).rewritten k Slot.empty) :=
      State.noneWaits_rewritten idle (by simp [Slot.empty])
    have ends := State.taken_of_finish (State.finish_openRound_of_noneWaits (State.noneWaits_abandons waits u) m)
    exact request_served l test (by simp) (serve.trans ends) rfl

end Sys2Proof.Proofs
end

section
/-! The lock and the trigger matches of the order table (R63 to R69). -/

namespace Sys2Proof.Machine

open Sys2Proof.Safety

/-! ### The lock -/

/-- READ_SLOT takes the lock of the slot (R64, step 2). -/
def Slot.takesLock (r : Slot) : Bool := r.unread && (r.state == .armed || r.state == .done)

theorem Slot.takesLock_iff (r : Slot) :
    r.takesLock = true ↔ r.unread = true ∧ (r.state = .armed ∨ r.state = .done) := by
  rw [Slot.takesLock, Bool.and_eq_true, Bool.or_eq_true, beq_iff_eq, beq_iff_eq]

section

variable {s : State} {k : SlotNo}

/-- The lock of a slot with a deferred trigger released: the slot is PENDING and a round opens (R64, step 1). -/
theorem State.releaseLock_of_deferred (st : (s.slot k).state = .armed) (d : (s.slot k).deferred = true) :
    s.releaseLock k =
      (({ s with lock := none }).setSlot k { s.slot k with state := .pending, deferred := false }).openRound :=
  if_pos ⟨st, d⟩

/-- The lock of any other slot released: a DONE slot outstanding at the runner is offered to it (R64, R176). -/
theorem State.releaseLock_of_not_deferred (h : ¬((s.slot k).state = .armed ∧ (s.slot k).deferred = true)) :
    s.releaseLock k =
      { s with lock := none,
               runner := if (s.slot k).state == .done && (s.slot k).owner == .sequence && s.runner.has k then
                 { s.runner with offers := s.runner.offers ++ [k] } else s.runner } := by
  have offered : ((s.slot k).state = .done ∧ (s.slot k).owner = .sequence ∧ s.runner.has k = true ∧
      (s.setLock none).locked k = false) ↔
      ((s.slot k).state == .done && (s.slot k).owner == .sequence && s.runner.has k) = true := by
    simp [State.locked, and_assoc]
  unfold State.releaseLock
  simp only [h, if_false]
  unfold State.offer
  simp only [slot_setLock, runner_setLock, offered]
  split
  · rfl
  · rfl

/-- READ_SLOT takes the lock of a slot with an unread report that is ARMED or DONE (R64, step 2). -/
theorem State.takeLock_eq (s : State) (k : SlotNo) :
    s.takeLock k = s.setLock (if (s.slot k).takesLock then some k else s.lock) := by
  unfold State.takeLock
  simp only [← Slot.takesLock_iff]
  split
  · rfl
  · rfl

theorem State.releaseOther_of_free (h : s.lock = none ∨ s.lock = some k) : s.releaseOther k = s := by
  unfold State.releaseOther
  obtain e | e := h
  · rw [e]
  · rw [e]
    exact if_pos rfl

theorem State.releaseOther_of_locked {j : SlotNo} (h : s.lock = some j) (ne : j ≠ k) :
    s.releaseOther k = s.releaseLock j := by
  unfold State.releaseOther
  rw [h]
  exact if_neg ne

/-- READ_SLOT, once the lock of another slot is released: its reply and its writes (R63, R64). -/
theorem State.serveReadSlot_eq {t : State} (released : s.releaseOther k = t) (same : t.slot k = s.slot k) :
    s.serve (.readSlot k.val) =
      (.ok (encSlot (s.slot k) ((if (s.slot k).takesLock then some k else t.lock) == some k)),
        ((t.setLock (if (s.slot k).takesLock then some k else t.lock)).setSlot k (s.slot k).markRead).finish) := by
  have serve : s.serve (.readSlot k.val) = (.ok (encSlot (s.slot k) ((t.takeLock k).locked k)),
      ((t.takeLock k).setSlot k ((t.takeLock k).slot k).markRead).finish) := by
    rw [State.serve, State.serveReadSlot, slotOf_val, State.named_some, released]
    rfl
  rw [serve, State.takeLock_eq, State.slot_setLock, same]
  rfl

theorem State.setSlot_setLock_openRound (s : State) (l : Option SlotNo) (k : SlotNo) (r : Slot) :
    (s.openRound.setLock l).setSlot k r = ((s.setLock l).setSlot k r).openRound := rfl

/-- READ_SLOT after the lock of another slot has been released (R64). -/
theorem State.serveReadSlot_of_released {t : State} (released : s.releaseOther k = t) (same : t.slot k = s.slot k)
    (lock : t.lock = none) :
    s.serve (.readSlot k.val) =
      (.ok (encSlot (s.slot k) (s.slot k).takesLock),
        ((t.setLock (if (s.slot k).takesLock then some k else none)).setSlot k (s.slot k).markRead).finish) := by
  have holds : ((if (s.slot k).takesLock then some k else none) == some k) = (s.slot k).takesLock := by
    cases (s.slot k).takesLock <;> simp
  rw [State.serveReadSlot_eq released same, lock, holds]

/-- UNLOCK of the locked slot (R65). -/
theorem State.serveUnlock_of_locked (h : s.lock = some k) : s.serve (.unlock k.val) = (s.releaseLock k).taken := by
  rw [State.serve, State.serveUnlock, slotOf_val, State.named_some]
  exact if_pos h

/-- UNLOCK of any other slot (R65). -/
theorem State.serveUnlock_of_other (h : s.lock ≠ some k) : s.serve (.unlock k.val) = s.taken := by
  rw [State.serve, State.serveUnlock, slotOf_val, State.named_some]
  exact if_neg h

end

/-! ### Tide events -/

theorem Trigger.matches_iff (t : Trigger) (e : TideEvent) :
    t.matches e = true ↔
      (t.kind = none ∨ t.kind = some e.kind) ∧ (t.index = none ∨ ∃ i, t.index = some i ∧ e.index = some i) := by
  have index : (t.index = none ∨ t.index = e.index) ↔ (t.index = none ∨ ∃ i, t.index = some i ∧ e.index = some i) := by
    cases t.index with
    | none => simp
    | some i => simp [eq_comm]
  rw [Trigger.matches, Bool.and_eq_true, Bool.or_eq_true, Bool.or_eq_true, beq_iff_eq, beq_iff_eq, beq_iff_eq,
    beq_iff_eq, index]

/-- A slot after a tide event that is matched against it (R66, R69). -/
def Slot.afterEvent (r : Slot) (e : TideEvent) (locked : Bool) : Slot :=
  if r.matches e then
    if locked then { r with deferred := true } else { r with state := .pending, deferred := false }
  else r

/-- Between `s` and `t` slots have changed and a round may have opened, nothing more. -/
def SlotsOnly (s t : State) : Prop := ∃ v m, t = { s with slots := v, marks := m }

theorem SlotsOnly.refl (s : State) : SlotsOnly s s := ⟨_, _, rfl⟩

theorem SlotsOnly.trans {s t u : State} : SlotsOnly s t → SlotsOnly t u → SlotsOnly s u := by
  rintro ⟨_, _, rfl⟩ ⟨v, m, rfl⟩
  exact ⟨v, m, rfl⟩

section

variable (e : TideEvent) (s : State) (k : SlotNo)

theorem State.matchSlot_slotsOnly : SlotsOnly s (State.matchSlot e s k) := by
  unfold State.matchSlot
  split
  · split
    · exact ⟨_, _, rfl⟩
    · exact ⟨_, _, rfl⟩
  · exact .refl s

/-- The match of one slot (R66, R69). -/
theorem State.slot_matchSlot (j : SlotNo) :
    (State.matchSlot e s k).slot j = if k = j then (s.slot k).afterEvent e (s.locked k) else s.slot j := by
  unfold State.matchSlot Slot.afterEvent
  split
  · split
    · exact s.slot_setSlot k j _
    · exact s.slot_setSlot k j _
  · split
    · next h => rw [h]
    · rfl

theorem State.foldl_matchSlot_slotsOnly (l : List SlotNo) : SlotsOnly s (l.foldl (State.matchSlot e) s) := by
  induction l generalizing s with
  | nil => exact .refl s
  | cons k l ih => exact (State.matchSlot_slotsOnly e s k).trans (ih _)

/-- The match of the slots of a list, each once (R69). -/
theorem State.slot_foldl_matchSlot {l : List SlotNo} (once : l.Nodup) (j : SlotNo) :
    (l.foldl (State.matchSlot e) s).slot j = if j ∈ l then (s.slot j).afterEvent e (s.locked j) else s.slot j := by
  induction l generalizing s with
  | nil => rfl
  | cons k l ih =>
    obtain ⟨fresh, once⟩ := List.nodup_cons.1 once
    obtain ⟨v, m, same⟩ := State.matchSlot_slotsOnly e s k
    have locked : (State.matchSlot e s k).locked j = s.locked j := by rw [same]; rfl
    rw [List.foldl_cons, ih _ once, locked, State.slot_matchSlot]
    by_cases h : k = j
    · subst h
      simp [fresh]
    · simp [h, Ne.symm h]

end

end Sys2Proof.Machine

namespace Sys2Proof.Proofs

open Sys2Proof.Machine Sys2Proof.Safety

/-- Settles O22: by the lock holder, and by the state of the slot as its lock is released. -/
theorem unlockReleasesLock : Obligations.UnlockReleasesLock := by
  unfold Obligations.UnlockReleasesLock
  intro n k s l m mode
  have test : s.modeTest (.unlock k.val) = none := State.modeTest_of_anyMode mode rfl (by simp)
  refine ⟨fun other => ?other, fun lock d owner => ?plain, fun lock st d run => ?deferred,
    fun lock st owner has => ?offered, fun lock st d run => ?round⟩
  case other =>
    have serve := State.serveUnlock_of_other other
    exact request_served l test (by simp) (serve.trans (State.taken_of_marksClear m)) rfl
  case plain =>
    have serve := State.serveUnlock_of_locked lock
    rw [State.releaseLock_of_not_deferred (by simp [d])] at serve
    simp only [owner, reduceCtorEq, beq_iff_eq, Bool.and_eq_true, and_false, false_and, if_false] at serve
    exact request_served l test (by simp) (serve.trans (State.taken_of_marksClear m)) rfl
  case deferred =>
    have serve := State.serveUnlock_of_locked lock
    rw [State.releaseLock_of_deferred st d] at serve
    have ends := State.taken_of_finish (State.finish_openRound_of_not_run
      (s := ({ s with lock := none }).setSlot k { s.slot k with state := .pending, deferred := false }) run m)
    exact request_served l test (by simp) (serve.trans ends) rfl
  case offered =>
    have serve := State.serveUnlock_of_locked lock
    rw [State.releaseLock_of_not_deferred (by simp [st])] at serve
    simp only [st, owner, has] at serve
    exact request_served l test (by simp) (serve.trans (State.taken_of_marksClear m)) rfl
  case round =>
    have serve := State.serveUnlock_of_locked lock
    rw [State.releaseLock_of_deferred st d] at serve
    obtain ⟨t, ht, after⟩ := request_rounded l test (by simp) serve m
    have slot := after.slot k
    rw [State.slot_setSlot_self] at slot
    obtain ⟨waiting, _, _, deferred⟩ := slot.of_waiting (.inl rfl)
    exact ⟨t, ht, after.lock, after.gates, deferred, waiting⟩

/-- Settles O23: each slot is matched once. -/
theorem tideEventsReleaseOrders : Obligations.TideEventsReleaseOrders := by
  unfold Obligations.TideEventsReleaseOrders
  refine ⟨Trigger.matches_iff, fun e s => ?_⟩
  have unchanged : s.mode = .resetting → s.matchEvent e = s := fun h => if_pos h
  have matched : s.mode ≠ .resetting → s.matchEvent e = allSlots.foldl (State.matchSlot e) s := fun h => if_neg h
  have frame : SlotsOnly s (s.matchEvent e) := by
    unfold State.matchEvent
    split
    · exact .refl s
    · exact State.foldl_matchSlot_slotsOnly e s _
  refine ⟨unchanged, fun mode k => ?slot, ?frame⟩
  case slot =>
    rw [matched mode, State.slot_foldl_matchSlot e s (by decide), if_pos (by revert k; decide)]
    simp only [Slot.afterEvent, State.locked, beq_iff_eq]
  case frame =>
    obtain ⟨v, marks, same⟩ := frame
    rw [same]
    exact ⟨rfl, rfl, rfl, rfl, rfl, rfl⟩

/-- Settles O21: by the lock holder before the request; the layouts are the model's encoders written out. -/
theorem readSlotReadsAndLocks : Obligations.ReadSlotReadsAndLocks := by
  unfold Obligations.ReadSlotReadsAndLocks
  refine ⟨fun n k s l m mode => ?reads, fun _ _ => rfl, ?orderItems, fun _ => rfl, by decide⟩
  case reads =>
    have test : s.modeTest (.readSlot k.val) = none := State.modeTest_of_anyMode mode rfl (by simp)
    refine ⟨fun lock => ?free, fun j lock ne st d run => ?deferred, fun j lock ne plain => ?released⟩
    case free =>
      have serve := State.serveReadSlot_eq (State.releaseOther_of_free lock) rfl
      rw [State.finish_of_marksClear (by exact m)] at serve
      exact request_served l test (by simp) serve rfl
    case deferred =>
      have released := (State.releaseOther_of_locked lock ne).trans (State.releaseLock_of_deferred st d)
      have serve := State.serveReadSlot_of_released released (State.slot_setSlot_ne _ _ ne) rfl
      rw [State.setSlot_setLock_openRound, State.finish_openRound_of_not_run (by exact run) (by exact m)] at serve
      exact request_served l test (by simp) serve rfl
    case released =>
      have released := (State.releaseOther_of_locked lock ne).trans (State.releaseLock_of_not_deferred plain)
      have serve := State.serveReadSlot_of_released released rfl rfl
      rw [State.finish_of_marksClear (by exact m)] at serve
      exact request_served l test (by simp) serve rfl
  case orderItems =>
    intro o
    unfold encOrder
    cases o.trigger with
    | none => rfl
    | some t =>
      obtain ⟨kind, index⟩ := t
      cases kind <;> cases index <;> rfl

end Sys2Proof.Proofs
end

section
/-! The runner's collection of a DONE slot (R71, R176, R177, R179, R180). -/

namespace Sys2Proof.Machine

open Sys2Proof.Safety

/-- The runner after the collection of slot `k` with outcome `o`: the claimed offer, the entry and any other offer of
the slot gone, the outcome recorded (R171, R176; log 29). -/
def Runner.afterCollection (r : Runner) (k : SlotNo) (o : OrderOutcome) : Runner :=
  { r with outstanding := r.outstanding.filter fun e => e.1 != k, offers := (r.offers.erase k).filter fun j => j != k,
           anyClamped := if o = .clamped then some true else r.anyClamped }

theorem Runner.record_eq (r : Runner) (o : OrderOutcome) :
    r.record o = { r with anyClamped := if o = .clamped then some true else r.anyClamped } := by
  unfold Runner.record
  split
  · rfl
  · rfl

theorem Runner.record_remove (r : Runner) (k : SlotNo) (o : OrderOutcome) :
    (({ r with offers := r.offers.erase k }).remove k).record o = r.afterCollection k o := Runner.record_eq _ o

/-- The model's any-clamped value as a Bool: a collected CLAMPED sets it, otherwise the recorded one stands (R171). -/
theorem Runner.anyClamped_afterCollection (r : Runner) (k : SlotNo) (o : OrderOutcome) :
    (r.afterCollection k o).anyClamped.getD false = if o = .clamped then true else r.anyClamped.getD false := by
  unfold Runner.afterCollection
  split
  · rfl
  · rfl

/-- The slot is one that the runner may collect: offered, DONE, its own, with a report, and not locked (R71). -/
structure Collectable (s : State) (k : SlotNo) (x : Report) : Prop where
  offered : k ∈ s.runner.offers
  done : (s.slot k).state = .done
  owner : (s.slot k).owner = .sequence
  report : (s.slot k).report = some x
  unlocked : s.lock ≠ some k

/-- The state once slot `k` is collected, before the step is judged (R71, R176). -/
def State.freedBy (s : State) (k : SlotNo) (o : OrderOutcome) : State :=
  (s.setSlot k Slot.empty).setRunner (s.runner.afterCollection k o)

section

variable {s : State} {k : SlotNo} {x : Report}

theorem State.freeSlot_of_not_posting (st : s.runner.state ≠ .posting) (unlocked : s.lock ≠ some k) :
    s.freeSlot k = s.setSlot k Slot.empty := by
  have awaited : s.awaited k = false := by
    unfold State.awaited
    rw [beq_eq_false_iff_ne.2 st, Bool.false_and]
  unfold State.freeSlot
  simp only [awaited, Bool.false_eq_true, if_false]
  rw [s.dropLock_setSlot, State.rewritten_of_unlocked _ unlocked]

/-- A claim that is taken frees the slot and records its outcome (R71, R176). -/
theorem Collectable.freed (h : Collectable s k x) (st : s.runner.state ≠ .posting) (o : OrderOutcome) :
    ((s.modRunner fun r => { r with offers := r.offers.erase k }).freeSlot k).modRunner
      (fun r => (r.remove k).record o) = s.freedBy k o := by
  have freed := State.freeSlot_of_not_posting
    (s := s.modRunner fun r => { r with offers := r.offers.erase k }) st h.unlocked
  rw [freed]
  exact congrArg (s.setSlot k Slot.empty).setRunner (s.runner.record_remove k o)

theorem Collectable.collect (h : Collectable s k x) :
    s.collect k = (s.modRunner fun r => { r with offers := r.offers.erase k }).collected k x.outcome := by
  have unlocked : s.locked k = false := beq_eq_false_iff_ne.2 h.unlocked
  unfold State.collect
  rw [List.contains_iff_mem.2 h.offered, if_pos rfl]
  simp only [State.modRunner, State.slot_setRunner, State.locked_setRunner, h.done, h.owner, h.report, unlocked,
    Bool.false_eq_true, if_false]

/-- A collection in STEP: the step waits for the rest, is done, or fails (R177, R179). -/
theorem Collectable.collect_step (h : Collectable s k x) (st : s.runner.state = .step) :
    s.collect k =
      if x.outcome = .reached ∨ x.outcome = .clamped then
        if (s.freedBy k x.outcome).runner.outstanding = [] then
          State.runOn s.dwellsLeft ((s.freedBy k x.outcome).stepDone (s.runner.step.getD 0))
        else s.freedBy k x.outcome
      else (s.freedBy k x.outcome).failStep (.outcome x.outcome) (some k) := by
  have state : (s.freedBy k x.outcome).runner.state = .step := st
  rw [h.collect]
  unfold State.collected
  rw [h.freed (by simp [st])]
  simp only [state]
  rfl

/-- A collection in WINDING_DOWN (R180). -/
theorem Collectable.collect_windingDown (h : Collectable s k x) (st : s.runner.state = .windingDown) :
    s.collect k = (s.freedBy k x.outcome).endIfEmpty := by
  have state : (s.freedBy k x.outcome).runner.state = .windingDown := st
  rw [h.collect]
  unfold State.collected
  rw [h.freed (by simp [st])]
  simp only [state]

/-- A dwell that has not passed ends the runner's part of the event (R177). -/
theorem State.runOn_of_dwelling (n : Nat) (h : s.runner.dwell ≠ some 0) : State.runOn n s = s := by
  cases n with
  | zero => rfl
  | succ n => exact if_neg fun d => h d.2

theorem exec_runnerCollection (h : s.resetHeld = false) (k : SlotNo) :
    exec (.runnerCollection k) s = .next (s.collect k).finish := event_released h fun s => s.collect k

end

end Sys2Proof.Machine

namespace Sys2Proof.Proofs

open Sys2Proof.Machine Sys2Proof.Safety

/-- Settles O51: by the runner's state, the outcome, and whether another slot is outstanding. -/
theorem runnerCollects : Obligations.RunnerCollects := by
  unfold Obligations.RunnerCollects
  intro k s released m
  refine ⟨fun unoffered => ?unoffered, fun x i offered done owner report unlocked step => ?collected⟩
  case unoffered =>
    have same : s.collect k = s := by
      unfold State.collect
      rw [Bool.eq_false_iff.2 (List.contains_iff_mem.not.2 unoffered), if_neg Bool.false_ne_true]
    rw [exec_runnerCollection released, same, State.finish_of_marksClear m]
  case collected =>
    have claim : Collectable s k x := ⟨offered, done, owner, report, unlocked⟩
    intro rest freed good seconds
    have marks : MarksClear (s.freedBy k x.outcome) := m
    have lasts_iff : (s.freedBy k x.outcome).runner.outstanding = [] ↔ rest = [] := Iff.rfl
    have number : (s.freedBy k x.outcome).runner.step.getD 0 = i := congrArg (fun j => j.getD 0) step
    refine ⟨fun st reached more => ?waits, fun st reached last lasts => ?dwells, fun st bad last => ?fails,
      fun st more => ?winds, fun o st ending last => ?ends⟩
    case waits =>
      rw [exec_runnerCollection released, claim.collect_step st, if_pos reached, if_neg (lasts_iff.not.2 more),
        State.finish_of_marksClear marks]
      rfl
    case dwells =>
      have dwelling : ((s.freedBy k x.outcome).stepDone i).runner.dwell ≠ some 0 := by
        have : seconds * 1000 ≠ 0 := by omega
        exact fun h => this (Option.some.inj h)
      rw [exec_runnerCollection released, claim.collect_step st, if_pos reached, if_pos (lasts_iff.2 last), step,
        Option.getD_some, State.runOn_of_dwelling _ dwelling,
        State.finish_of_marksClear (s := (s.freedBy k x.outcome).stepDone i) marks]
      refine ⟨_, rfl, rfl, rfl, rfl, rfl, last, ?_⟩
      rw [← s.runner.anyClamped_afterCollection k x.outcome]
      rfl
    case fails =>
      rw [exec_runnerCollection released, claim.collect_step st, if_neg bad, State.failStep,
        State.windDown_of_empty _ _ _ (lasts_iff.2 last), State.finish_of_marksClear (by exact marks), number]
      rfl
    case winds =>
      rw [exec_runnerCollection released, claim.collect_windingDown st,
        State.endIfEmpty_of_outstanding (lasts_iff.not.2 more), State.finish_of_marksClear marks]
      rfl
    case ends =>
      rw [exec_runnerCollection released, claim.collect_windingDown st,
        State.endIfEmpty_of_empty (s := s.freedBy k x.outcome) st last ending,
        State.finish_of_marksClear (by exact marks), State.endSequence, number]
      rfl

end Sys2Proof.Proofs
end

section
/-! Line-up of a manifold (R17, R54, R55, R100, R135). -/

namespace Sys2Proof.Machine

open Sys2Proof.Safety

section

variable {s : State} {u : UnitNo} {k : SlotNo} {g : GateNo} {o : Order}

/-! ### The lined-up input -/

/-- State `s` with the lined-up input of unit `u` at `b` (R94). -/
abbrev State.withLined (s : State) (u : UnitNo) (b : Bool) : State :=
  s.setUnitInput u { s.unitInput u with lined := b }

/-- The manifold of LINING_UP unit `u` is about to report lined up, for the GRANTED order `o` of slot `k` at gate `g`
(R54, R100). -/
structure LinesUp (s : State) (u : UnitNo) (k : SlotNo) (g : GateNo) (o : Order) : Prop where
  released : s.resetHeld = false
  lined : (s.unitInput u).lined = false
  liningUp : (s.unit u).state = .liningUp
  unitSlot : (s.unit u).slot = some k
  unitGate : (s.unit u).gate = some g
  granted : (s.slot k).state = .granted
  order : (s.slot k).order = some o
  gate : o.gate = g

/-- The report of a LINING_UP unit is taken to the event's end (R100). -/
theorem LinesUp.exec (h : LinesUp s u k g o) :
    exec (.linedUpChange u true) s = .next ((s.withLined u true).linedUp u k g).finish := by
  have done : (s.withLined u true).lineUpDone u = (s.withLined u true).linedUp u k g := by
    unfold State.lineUpDone
    simp only [State.unit_setUnitInput, h.liningUp, h.unitSlot, h.unitGate]
  have event : s.linedEvent u true = ((s.withLined u true).lineUpDone u).finish := by
    unfold State.linedEvent
    simp only [h.lined, Bool.false_eq_true, if_false, State.resetHeld_setUnitInput, h.released, State.unit_setUnitInput,
      h.liningUp, and_self, if_true]
  exact congrArg _ (event.trans (congrArg _ done))

/-- Any other change of the lined-up input is only recorded (R94, R100; log 4). -/
theorem State.linedEvent_recorded {b : Bool} (change : (s.unitInput u).lined ≠ b)
    (other : b = false ∨ (s.unit u).state ≠ .liningUp) : s.linedEvent u b = s.withLined u b := by
  have no : ¬(b = true ∧ ((s.withLined u b).unit u).state = .liningUp) := by
    rintro ⟨rfl, st⟩
    exact other.elim (by simp) fun ne => ne st
  unfold State.linedEvent
  simp only [change, no, if_false, ite_self]

/-! ### The envelope check at line-up -/

theorem State.lineUpCheck_unlimited {t x : Int} (kind : o.kind = .set) (target : o.target = some t)
    (opening : (s.gate o.gate).opening = some x) (limit : limitedTarget .set o.rule x (s.ceiling o.gate) t = none) :
    s.lineUpCheck o = some (some t, false) := by
  unfold State.lineUpCheck
  simp only [kind, target, opening, limit]

theorem State.lineUpCheck_clamped {t x v : Int} (kind : o.kind = .set) (rule : o.rule = .clamp)
    (target : o.target = some t) (opening : (s.gate o.gate).opening = some x)
    (limit : limitedTarget .set .clamp x (s.ceiling o.gate) t = some v) :
    s.lineUpCheck o = some (some v, true) := by
  unfold State.lineUpCheck
  simp [kind, rule, target, opening, limit]

theorem State.lineUpCheck_refused {t x : Int} (kind : o.kind = .set) (rule : o.rule = .refuse)
    (target : o.target = some t) (opening : (s.gate o.gate).opening = some x) (raises : x < t)
    (exceeds : s.ceiling o.gate < t) : s.lineUpCheck o = none := by
  have limit : limitedTarget .set .refuse x (s.ceiling o.gate) t = some x := by simp [limitedTarget, raises, exceeds]
  unfold State.lineUpCheck
  simp [kind, rule, target, opening, limit]

/-- A STREAM or LEVEL order is not limited at line-up (R135). -/
theorem State.lineUpCheck_of_not_set (s : State) (kind : o.kind ≠ .set) : s.lineUpCheck o = some (none, false) := by
  unfold State.lineUpCheck
  cases e : o.kind with
  | set => exact absurd e kind
  | stream => rfl
  | level => rfl

/-! ### The start of the move -/

/-- The pin feedback follows the mounting map of the gate's parameters (R2, R3). -/
theorem State.bothPins_setGate {r : GateRec} (p : PinPos) (h : r.params = (s.gate g).params) :
    (s.setGate g r).bothPins g p = s.bothPins g p := by
  unfold State.bothPins State.pin
  rw [State.gate_setGate_self, h]
  rfl

/-- The start of a move with a pin that is not WITHDRAWN (R17). -/
theorem State.startMove_of_pins (o : Order) (w : Option Int) (reduced : Bool) (pins : s.bothPins g .withdrawn = false) :
    s.startMove g k u o w reduced = s.setGate g ((s.gate g).releasing k u o w reduced) := by
  have same : (s.modGate g fun r => r.releasing k u o w reduced).bothPins g .withdrawn = s.bothPins g .withdrawn :=
    State.bothPins_setGate _ rfl
  unfold State.startMove
  simp only [same, pins, Bool.false_eq_true, if_false]
  rfl

/-- The start of a move keeps the parameters and the level-required mark, and of each end all but valve, pin command and
stall timer (R16, R17). -/
theorem GateRec.hoist_releasing (r : GateRec) (o : Order) (w : Option Int) (reduced : Bool) (e : HoistEnd) :
    (r.releasing k u o w reduced).hoist e =
      { r.hoist e with valve := .closed, pinCmd := .withdraw, stall := none } := by
  cases e <;> rfl

/-- A line-up that passes the envelope check starts the move (R54, R100). -/
theorem State.linedUp_of_check (st : (s.slot k).state = .granted) (order : (s.slot k).order = some o) {w : Option Int}
    {reduced : Bool} (check : s.lineUpCheck o = some (w, reduced)) :
    s.linedUp u k g =
      ((s.setUnit u ((s.unit u).toAssigned g)).setSlot k ((s.slot k).started s.clock)).startMove g k u o w reduced := by
  have check' : (s.modUnit u fun p => p.toAssigned g).lineUpCheck o = some (w, reduced) := check
  unfold State.linedUp
  simp only [st, order, check']
  rfl

/-- The release of a unit after a completion and before it come to the same (R59, R102). -/
theorem releases_completes_assigned (s : State) (u : UnitNo) (k : SlotNo) (g : GateNo) (o : Order) (x : Report) :
    releases (completes (s.setUnit u ((s.unit u).toAssigned g)) k o x) (some u) =
      (completes (s.setUnit u (s.unit u).toIdle) k o x).openRound := by
  have unit : (completes (s.setUnit u ((s.unit u).toAssigned g)) k o x).unit u = (s.unit u).toAssigned g :=
    s.unit_setUnit_self u _
  have idle : (completes (s.setUnit u ((s.unit u).toAssigned g)) k o x).setUnit u (s.unit u).toIdle =
      completes ((s.setUnit u ((s.unit u).toAssigned g)).setUnit u (s.unit u).toIdle) k o x := rfl
  unfold releases
  simp only [unit]
  rw [State.setUnit_setUnit] at idle
  exact (if_pos rfl).trans (congrArg State.openRound idle)

/-- A line-up that the envelope check refuses completes the order ENVELOPE without a move, and releases the unit
(R55). -/
theorem State.linedUp_of_refusal (st : (s.slot k).state = .granted) (order : (s.slot k).order = some o)
    (refused : s.lineUpCheck o = none) :
    s.linedUp u k g =
      (completes (s.setUnit u (s.unit u).toIdle) k o
        { outcome := .envelope, cause := none, finalL := (s.gate g).endL.held, finalR := (s.gate g).endR.held,
          startTime := some s.clock, endTime := s.clock, unitUsed := some u, unread := true,
          overwritten := (s.slot k).unread }).openRound := by
  have refused' : (s.modUnit u fun p => p.toAssigned g).lineUpCheck o = none := refused
  have order' : ((s.modUnit u fun p => p.toAssigned g).slot k).order = some o := order
  unfold State.linedUp
  simp only [st, order, refused']
  rw [State.complete_eq _ _ _ o order', State.releaseUnit_eq]
  exact releases_completes_assigned s u k g o _

/-- A line-up that passes the envelope check starts the move at the event's end (R54, R100, R135). -/
theorem LinesUp.starts (h : LinesUp s u k g o) (m : MarksClear s) {w : Option Int} {reduced : Bool}
    (check : s.lineUpCheck o = some (w, reduced)) (pins : s.bothPins g .withdrawn = false) :
    Machine.exec (.linedUpChange u true) s = .next
      ((((s.withLined u true).setUnit u ((s.unit u).toAssigned g)).setSlot k ((s.slot k).started s.clock)).setGate g
        ((s.gate g).releasing k u o w reduced)) := by
  have linedUp := State.linedUp_of_check (s := s.withLined u true) (u := u) (g := g) h.granted h.order check
  rw [State.startMove_of_pins _ _ _ (by exact pins)] at linedUp
  rw [h.exec, linedUp, State.finish_of_marksClear (by exact m)]
  rfl

end

end Sys2Proof.Machine

namespace Sys2Proof.Proofs

open Sys2Proof.Machine Sys2Proof.Safety

/-- Settles O39: by the envelope check of the order at line-up; every other change of the input is recorded. -/
theorem lineUpStartsOrRefuses : Obligations.LineUpStartsOrRefuses := by
  unfold Obligations.LineUpStartsOrRefuses
  refine ⟨?unlimited, ?passed, ?refused, ?recorded⟩
  case unlimited =>
    intro u k g o t x s released m lined liningUp slot gate granted order forGate kind target opening limit pins
    have up : LinesUp s u k g o := ⟨released, lined, liningUp, slot, gate, granted, order, forGate⟩
    have check := State.lineUpCheck_unlimited kind target (forGate ▸ opening) (forGate ▸ limit)
    refine ⟨_, up.starts m check pins, rfl, rfl, rfl, rfl, GateRec.hoist_releasing _ _ _ _, ?_⟩
    rw [← kind]
    rfl
  case passed =>
    intro u k g o w reduced s released m lined liningUp slot gate granted order forGate pins kinds
    have up : LinesUp s u k g o := ⟨released, lined, liningUp, slot, gate, granted, order, forGate⟩
    have check : s.lineUpCheck o = some (w, reduced) := by
      obtain ⟨kind, rfl, rfl⟩ | ⟨kind, rule, rfl, t, x, v, target, opening, limit, rfl⟩ := kinds
      · exact s.lineUpCheck_of_not_set kind
      · exact State.lineUpCheck_clamped kind rule target (forGate ▸ opening) (forGate ▸ limit)
    exact ⟨_, up.starts m check pins, rfl, rfl⟩
  case refused =>
    intro u k g o t x s released m lined liningUp slot gate granted order forGate kind rule target opening raises
      exceeds
    have up : LinesUp s u k g o := ⟨released, lined, liningUp, slot, gate, granted, order, forGate⟩
    have check := State.lineUpCheck_refused kind rule target (forGate ▸ opening) raises (forGate ▸ exceeds)
    rw [up.exec, State.linedUp_of_refusal (s := s.withLined u true) granted order check]
    rfl
  case recorded =>
    intro u b s change other
    exact congrArg _ (State.linedEvent_recorded change other)

end Sys2Proof.Proofs
end

section
/-! The marks of an event are clear after it (log 17): what is run to its end leaves none (`State.marks_finish`), and
every other command leaves them as they were. -/

namespace Sys2Proof.Safety.MarksClear

open Sys2Proof.Machine

variable {s : State}

/-- An event that is run to its end, whatever it has marked on the way (R78, R189). -/
theorem finish (s : State) : MarksClear s.finish := s.marks_finish

theorem ite {a b : State} {p : Prop} [Decidable p] (ha : MarksClear a) (hb : MarksClear b) :
    MarksClear (if p then a else b) := by
  split
  · exact ha
  · exact hb

/-! ### Requests -/

/-- A request taken with OK is run to the end of its event (R205). -/
theorem taken (s : State) : MarksClear s.taken.2 := finish s

theorem answer_ite {a b : Answer × State} {p : Prop} [Decidable p] (ha : MarksClear a.2) (hb : MarksClear b.2) :
    MarksClear (if p then a else b).2 := by
  split
  · exact ha
  · exact hb

theorem checked (m : MarksClear s) (l : List (Nat × Bool)) {a : Answer × State} (h : MarksClear a.2) :
    MarksClear (s.checked l a).2 := by
  unfold State.checked
  split
  · exact m
  · exact h

theorem named {α : Type} (m : MarksClear s) (x : Option α) {f : α → Answer × State} (h : ∀ a, MarksClear (f a).2) :
    MarksClear (s.named x f).2 := by
  unfold State.named
  split
  · exact h _
  · exact m

theorem withMode (m : MarksClear s) (st : Status) : MarksClear (State.withMode st s).2 := m

theorem serveRun (m : MarksClear s) : MarksClear s.serveRun.2 := by
  unfold State.serveRun
  split
  · split
    · exact (finish _).withMode _
    · exact m.withMode _
  · exact m.withMode _
  · exact m.withMode _
  · exact (finish _).withMode _
  · exact m.withMode _

theorem serveHold (m : MarksClear s) : MarksClear s.serveHold.2 := by
  unfold State.serveHold
  split
  · exact (finish _).withMode _
  · exact m.withMode _
  · exact m.withMode _

theorem serveStopAll (m : MarksClear s) : MarksClear s.serveStopAll.2 := by
  unfold State.serveStopAll
  split
  · exact (finish _).withMode _
  · exact (finish _).withMode _
  · exact (finish _).withMode _
  · exact (finish _).withMode _
  · exact m.withMode _

theorem serveStopGate (m : MarksClear s) (g : Nat) : MarksClear (s.serveStopGate g).2 := by
  refine m.named _ fun g => ?_
  simp only
  split
  · exact m
  · exact m
  · exact m
  · exact taken _
  · exact taken _

theorem serveClearTrip (m : MarksClear s) (g : Nat) : MarksClear (s.serveClearTrip g).2 := by
  refine m.named _ fun g => ?_
  simp only
  split
  · exact m
  · exact answer_ite (taken _) m
  · exact m

theorem servePostOrder (m : MarksClear s) (k : Nat) (f : RawOrder) : MarksClear (s.servePostOrder k f).2 :=
  m.checked _ <| m.named _ fun _ => m.named _ fun _ =>
    answer_ite m <| answer_ite m <| answer_ite m <| answer_ite m (taken _)

theorem serveWithdraw (m : MarksClear s) (k : Nat) : MarksClear (s.serveWithdraw k).2 := by
  refine m.named _ fun k => ?_
  split
  · exact taken _
  · exact m
  · exact taken _

theorem serveService (m : MarksClear s) (u v : Nat) : MarksClear (s.serveService u v).2 := by
  refine m.named _ fun u => ?_
  split
  · unfold State.serveServiceOut
    split
    · exact taken _
    · exact taken _
    · exact taken _
    · exact m
  · unfold State.serveServiceIn
    split
    · exact answer_ite m (taken _)
    · exact taken _
  · exact m

theorem serveLoadWindow (m : MarksClear s) (f : RawWindow) : MarksClear (s.serveLoadWindow f).2 := by
  refine m.checked _ ?_
  split
  · exact taken _
  · exact m

theorem serveDefine (m : MarksClear s) (f : RawSequence) : MarksClear (s.serveDefine f).2 := by
  refine m.checked _ (answer_ite m ?_)
  split
  · exact taken _
  · exact m

theorem serveStart (m : MarksClear s) : MarksClear s.serveStart.2 := by
  unfold State.serveStart
  split
  · exact m
  · exact answer_ite (taken _) m

theorem serveStop (m : MarksClear s) : MarksClear s.serveStop.2 := by
  unfold State.serveStop
  split
  · exact m
  · exact taken _

/-- Every request of a known kind (R208). -/
theorem serve (m : MarksClear s) (r : Request) : MarksClear (s.serve r).2 := by
  cases r with
  | status | setClock | listSlots | readTide => exact m
  | setNotices | writeCells => exact m.checked _ m
  | configureArbiter | readGate | readQueue | readCells => exact m.named _ fun _ => m
  | reset => exact taken s
  | run => exact m.serveRun
  | hold => exact m.serveHold
  | stopAll => exact m.serveStopAll
  | configureGate =>
    exact answer_ite (m.named _ fun _ => answer_ite (taken _) (answer_ite m (taken _)))
      (m.checked _ (m.named _ fun _ => m.checked _ (taken _)))
  | configureUnit | setStepDwell => exact m.named _ fun _ => m.checked _ (taken _)
  | configureTide | configureEnvelope => exact m.checked _ (taken _)
  | configureThreshold => exact m.checked _ (m.named _ fun _ => taken _)
  | configureQueue => exact m.checked _ (m.named _ fun _ => answer_ite m (answer_ite m (taken _)))
  | postOrder k f => exact m.servePostOrder k f
  | withdrawOrder k => exact m.serveWithdraw k
  | readSlot => exact m.named _ fun _ => finish _
  | unlock => exact m.named _ fun _ => answer_ite (taken _) (taken _)
  | stopGate g => exact m.serveStopGate g
  | clearTrip g => exact m.serveClearTrip g
  | setUnitService u v => exact m.serveService u v
  | pushPoints =>
    exact m.checked _ (m.named _ fun _ => answer_ite m (answer_ite m (m.checked _ (finish _))))
  | peekPoints => exact m.checked _ (m.named _ fun _ => answer_ite m m)
  | flushPoints => exact m.named _ fun _ => answer_ite m (answer_ite m (taken _))
  | setLoadWindow f => exact m.serveLoadWindow f
  | defineSequence f => exact m.serveDefine f
  | startSequence => exact m.serveStart
  | stopSequence => exact m.serveStop

/-! ### The link port -/

theorem reply (m : MarksClear s) (idle : Bool) (r : Reply) : MarksClear (s.reply idle r) := by
  unfold State.reply
  split
  · exact m
  · exact m

/-- A round closes its own mark and leaves the report's (R78). -/
theorem takeRound (h : s.marks.reportDue = false) : MarksClear s.takeRound :=
  State.finish_of_no_report h ▸ finish s

/-- Warm reset drops the report and takes its round (R190). -/
theorem warmReset (s : State) (r : Reply) : MarksClear (s.warmReset r) := takeRound rfl

theorem modeRefusal (m : MarksClear s) (r : Request) (st : Status) : MarksClear (s.modeRefusal r st).2 := by
  unfold State.modeRefusal
  split
  · exact m
  · exact m
  · exact m
  · exact m

theorem takeRequest (m : MarksClear s) (n : Byte) (r : Request) : MarksClear (s.takeRequest n r) := by
  refine ite m ?_
  unfold State.takeKnown
  simp only
  split
  · exact (m.modeRefusal r _).reply _ _
  · exact ite (warmReset s _) ((m.serve r).reply _ _)

theorem takeFrame (m : MarksClear s) (kind n : Byte) (body : List Byte) : MarksClear (s.takeFrame kind n body) := by
  have refused : ∀ st, MarksClear (s.refuseFrame n kind st) := fun st => ite m m
  unfold State.takeFrame
  split
  · exact refused _
  · exact ite (m.takeRequest n _) (refused _)

/-- A byte from the host, with the request that it may complete (R197, R199). -/
theorem receive (m : MarksClear s) (b : Byte) (stopHigh : Bool) : MarksClear (s.receive b stopHigh) := by
  have complete : ∀ l, MarksClear (s.completeFrame l) := fun l =>
    ite (takeFrame (s := s.setLink s.link.waiting) m _ _ _) m
  unfold State.receive
  split
  · split
    · exact m
    · exact m
  · split
    · exact ite m m
    · exact ite m (ite (complete _) m)

theorem gapExpired (m : MarksClear s) : MarksClear s.gapExpired := by
  unfold State.gapExpired
  split
  · exact m
  · exact m

theorem frameFinished (m : MarksClear s) : MarksClear s.frameFinished := by
  unfold State.frameFinished
  split
  · exact m
  · exact m

/-! ### The step -/

theorem simple (m : MarksClear s) {f : State → State} {t : State} (hf : MarksClear (f s)) (h : simple s f = .next t) :
    MarksClear t := by
  cases h
  exact ite m hf

theorem request (m : MarksClear s) {n : Byte} {r : Request} {t : State} (h : request s n r = .next t) :
    MarksClear t := by
  cases h
  exact ite m (m.takeRequest n r)

/-- Every command: an event is run to its end, or ignored while the reset line is held (R185). -/
theorem exec (m : MarksClear s) {i : Instr} {t : State} (h : exec i s = .next t) : MarksClear t := by
  cases i with
  | resetLineAsserted | faultClearing =>
    cases h
    exact m
  | coldReset strap =>
    cases h
    rfl
  | weirClockTick => exact m.simple (f := fun s => { s with clock := s.clock + 1 }) m h
  | receivedByte b stopHigh => exact m.simple (f := fun s => s.receive b stopHigh) (m.receive b stopHigh) h
  | gapTimerExpiry => exact m.simple m.gapExpired h
  | frameFinished => exact m.simple m.frameFinished h
  | status | setClock | run | hold | stopAll | reset | setNotices | configureGatePresent | configureGateAbsent
  | configureUnit | configureArbiter | configureTide | configureThreshold | configureEnvelope | configureQueue
  | postOrder | withdrawOrder | readSlot | unlock | listSlots | readGate | stopGate | clearTrip | setUnitServiceOut
  | setUnitServiceIn | readTide | pushPoints | peekPoints | flushPoints | readQueue | setLoadWindow | writeCells
  | setStepDwell | readCells | defineSequence | startSequence | stopSequence => exact m.request h
  | lockPinFeedback | faultAssertion =>
    cases h
    exact ite m (ite m (finish _))
  | readyChange | linedUpChange =>
    cases h
    exact ite m (ite m (ite (finish _) m))
  | encoderSample | encoderSilenceExpiry | releaseTimerExpiry | buildTimerExpiry | stallTimerExpiry | settleTimerExpiry
  | lockTimerExpiry | tripLockTimerExpiry | holdTimerExpiry | startTimerExpiry | lineUpTimerExpiry | idleTimerExpiry
  | gaugeSample | gaugeSilenceExpiry | postingAttempt | runnerCollection | dwellTimerExpiry =>
    cases h
    exact ite m (finish _)

end Sys2Proof.Safety.MarksClear

namespace Sys2Proof.Proofs

open Sys2Proof.Machine Sys2Proof.Safety

/-- Settles O60: the front command ends with both marks clear, and an empty queue idles. -/
theorem stepKeepsMarksClear : Obligations.StepKeepsMarksClear := by
  unfold Obligations.StepKeepsMarksClear
  intro s t m h
  unfold step at h
  split at h
  · cases h
    exact m
  · next i rest _ => exact MarksClear.exec (s := { s with pending := rest }) m h

end Sys2Proof.Proofs
end

section
/-! The choice of a pass (R82, R83): the winner among the eligible slots, and its unit among the free ones its gate
permits. -/

namespace Sys2Proof.Machine

/-! ### Lists in number order -/

theorem mem_allSlots (k : SlotNo) : k ∈ allSlots := List.mem_finRange k

theorem mem_allUnits (u : UnitNo) : u ∈ allUnits := List.mem_finRange u

theorem allSlots_increasing : allSlots.Pairwise (· < ·) := by decide

theorem allUnits_increasing : allUnits.Pairwise (· < ·) := by decide

/-- The first of a list in number order has the lowest number. -/
theorem head?_le {n : Nat} {l : List (Fin n)} (increasing : l.Pairwise (· < ·)) {k j : Fin n}
    (head : l.head? = some k) (mem : j ∈ l) : k ≤ j := by
  cases l with
  | nil => cases head
  | cons x l =>
    cases head
    obtain rfl | mem := List.mem_cons.1 mem
    · exact le_rfl
    · exact ((List.pairwise_cons.1 increasing).1 j mem).le

namespace State

variable {s : State}

/-! ### The winner (R82) -/

/-- Slot `k` ranks before slot `j` or is it: by priority value, then by number (R82). -/
def Ranks (s : State) (k j : SlotNo) : Prop :=
  (s.slot k).priority < (s.slot j).priority ∨ (s.slot k).priority = (s.slot j).priority ∧ k ≤ j

theorem Ranks.trans {i k j : SlotNo} (h : s.Ranks i k) (h' : s.Ranks k j) : s.Ranks i j := by
  simp only [Ranks, Fin.le_def] at *
  omega

theorem bestOf_eq_none_iff (s : State) (l : List SlotNo) : s.bestOf l = none ↔ l = [] := by
  cases l with
  | nil => simp [bestOf]
  | cons k l =>
    unfold bestOf
    split
    · simp
    · split <;> simp

/-- The best of a list in number order ranks before the others (R82). -/
theorem bestOf_ranks {l : List SlotNo} (increasing : l.Pairwise (· < ·)) {k : SlotNo} (h : s.bestOf l = some k) :
    ∀ j ∈ l, s.Ranks k j := by
  induction l generalizing k with
  | nil => exact fun _ mem => absurd mem List.not_mem_nil
  | cons i l ih =>
    obtain ⟨first, rest⟩ := List.pairwise_cons.1 increasing
    unfold bestOf at h
    split at h
    · next alone =>
      cases h
      rw [(s.bestOf_eq_none_iff l).1 alone]
      exact fun j mem => .inr (by simp [List.mem_singleton.1 mem])
    · next b best =>
      split at h
      · next lower =>
        cases h
        exact List.forall_mem_cons.2 ⟨.inl lower, ih rest best⟩
      · next notLower =>
        cases h
        have before : s.Ranks i b :=
          (lt_or_eq_of_le (not_lt.1 notLower)).imp_right fun equal => ⟨equal, (first b (s.bestOf_mem l b best)).le⟩
        exact List.forall_mem_cons.2 ⟨.inr ⟨rfl, le_rfl⟩, fun j mem => before.trans (ih rest best j mem)⟩

theorem winner_of_priority (h : s.arbitration = .priority) : s.winner = s.bestOf (allSlots.filter s.eligible) := by
  unfold winner
  rw [h]

theorem winner_of_slotOrder (h : s.arbitration = .slotOrder) : s.winner = (allSlots.filter s.eligible).head? := by
  unfold winner
  rw [h]

theorem mem_eligible {k : SlotNo} (h : s.eligible k = true) : k ∈ allSlots.filter s.eligible :=
  List.mem_filter.2 ⟨mem_allSlots k, h⟩

/-- There is no winner just where no slot is eligible (R82). -/
theorem winner_eq_none_iff (s : State) : s.winner = none ↔ ∀ k, s.eligible k = false := by
  have empty : allSlots.filter s.eligible = [] ↔ ∀ k, s.eligible k = false := by
    simp [List.filter_eq_nil_iff, mem_allSlots]
  cases mode : s.arbitration with
  | priority => rw [winner_of_priority mode, bestOf_eq_none_iff, empty]
  | slotOrder => rw [winner_of_slotOrder mode, List.head?_eq_none_iff, empty]

theorem winner_ranks {k j : SlotNo} (mode : s.arbitration = .priority) (h : s.winner = some k)
    (e : s.eligible j = true) : s.Ranks k j :=
  bestOf_ranks (allSlots_increasing.filter _) (winner_of_priority mode ▸ h) j (mem_eligible e)

theorem winner_le {k j : SlotNo} (mode : s.arbitration = .slotOrder) (h : s.winner = some k)
    (e : s.eligible j = true) : k ≤ j :=
  head?_le (allSlots_increasing.filter _) (winner_of_slotOrder mode ▸ h) (mem_eligible e)

/-! ### The unit of the winner (R83) -/

theorem mem_freePermitted (s : State) (g : GateNo) (u : UnitNo) :
    u ∈ s.freePermitted g ↔ s.unitFree u = true ∧ (s.gate g).params.permits u = true := by
  simp [freePermitted, List.mem_filter, mem_allUnits, and_comm]

theorem freePermitted_increasing (s : State) (g : GateNo) : (s.freePermitted g).Pairwise (· < ·) :=
  allUnits_increasing.filter _

theorem freePermitted_eq_nil_iff (s : State) (g : GateNo) :
    s.freePermitted g = [] ↔ ∀ u, ¬(s.unitFree u = true ∧ (s.gate g).params.permits u = true) := by
  simp only [List.eq_nil_iff_forall_not_mem, mem_freePermitted]

/-- A chosen unit is the first IDLE one, or the first of all where none is IDLE (R83). -/
theorem chooseUnit_cases {g : GateNo} {u : UnitNo} (h : s.chooseUnit g = some u) :
    ((s.freePermitted g).filter fun v => (s.unit v).state == .idle).head? = some u ∨
      (s.freePermitted g).head? = some u ∧ ∀ v ∈ s.freePermitted g, (s.unit v).state ≠ .idle := by
  unfold chooseUnit at h
  split at h
  · next v idle =>
    cases h
    exact .inl (List.head?_filter.trans idle)
  · next noneIdle =>
    exact .inr ⟨h, fun v mem idle => List.find?_eq_none.1 noneIdle v mem (beq_iff_eq.2 idle)⟩

theorem chooseUnit_mem {g : GateNo} {u : UnitNo} (h : s.chooseUnit g = some u) : u ∈ s.freePermitted g := by
  obtain idle | ⟨first, _⟩ := chooseUnit_cases h
  · exact (List.mem_filter.1 (List.mem_of_head? idle)).1
  · exact List.mem_of_head? first

/-- A chosen unit comes before the other free permitted ones: IDLE first, then by number (R83). -/
theorem chooseUnit_first {g : GateNo} {u v : UnitNo} (h : s.chooseUnit g = some u) (mem : v ∈ s.freePermitted g) :
    ((s.unit u).state ≠ .idle → (s.unit v).state ≠ .idle) ∧ ((s.unit u).state = (s.unit v).state → u ≤ v) := by
  have increasing := s.freePermitted_increasing g
  obtain first | ⟨first, noneIdle⟩ := chooseUnit_cases h
  · have idle : (s.unit u).state = .idle := beq_iff_eq.1 (List.mem_filter.1 (List.mem_of_head? first)).2
    refine ⟨fun ne => absurd idle ne, fun same => head?_le (increasing.filter _) first ?_⟩
    exact List.mem_filter.2 ⟨mem, beq_iff_eq.2 (same ▸ idle)⟩
  · exact ⟨fun _ => noneIdle v mem, fun _ => head?_le increasing first mem⟩

theorem chooseUnit_eq_none_iff (s : State) (g : GateNo) : s.chooseUnit g = none ↔ s.freePermitted g = [] := by
  constructor
  · intro h
    unfold chooseUnit at h
    split at h
    · cases h
    · exact List.head?_eq_none_iff.1 h
  · intro empty
    simp [chooseUnit, empty]

end State

end Sys2Proof.Machine

namespace Sys2Proof.Proofs

open Sys2Proof.Machine Sys2Proof.Safety

/-- Settles O36: the eligible slots and the free permitted units are lists in number order, of which the winner is the
best and the unit the first. -/
theorem grantChoiceRule : Obligations.GrantChoiceRule := by
  unfold Obligations.GrantChoiceRule
  refine ⟨fun s => ⟨s.winner_eq_none_iff, fun k h => ?winner⟩, fun s g u h => ?unit, fun s g => ?noUnit⟩
  case winner =>
    exact ⟨s.eligible_winner k h, fun mode j e => State.winner_ranks mode h e, fun mode j e => State.winner_le mode h e⟩
  case unit =>
    obtain ⟨free, permitted⟩ := (s.mem_freePermitted g u).1 (State.chooseUnit_mem h)
    exact ⟨free, permitted, fun v freeV permittedV =>
      State.chooseUnit_first h ((s.mem_freePermitted g v).2 ⟨freeV, permittedV⟩)⟩
  case noUnit => rw [s.chooseUnit_eq_none_iff, s.freePermitted_eq_nil_iff]

end Sys2Proof.Proofs
end

section
/-! A round that grants the one order of the table (R79, R84, R95 to R97). -/

namespace Sys2Proof.Machine

open Sys2Proof.Safety

namespace State

variable {s : State} {k : SlotNo} {g : GateNo} {u : UnitNo}

/-! ### The passes of a round (R76, R85) -/

/-- An empty slot is not eligible (R79, condition 1). -/
theorem eligible_of_empty (h : s.slot k = Slot.empty) : s.eligible k = false := by
  simp [eligible, h, Slot.empty]

/-- An order whose gate permits no free unit is not eligible (R79, condition 6). -/
theorem eligible_of_no_unit {o : Order} (order : (s.slot k).order = some o) (noUnit : s.freePermitted o.gate = []) :
    s.eligible k = false := by
  simp [eligible, order, noUnit]

/-- A PENDING order for a PARKED gate without the level-required mark meets the six conditions in RUN, where no other
slot has the gate and a free unit is permitted (R79). -/
theorem eligible_of_conditions {o : Order} (order : (s.slot k).order = some o) (pending : (s.slot k).state = .pending)
    (run : s.mode = .run) (parked : (s.gate o.gate).state = .parked) (level : (s.gate o.gate).levelRequired = false)
    (alone : s.gateTaken o.gate k = false) (free : s.freePermitted o.gate ≠ []) : s.eligible k = true := by
  simp [eligible, order, pending, run, parked, level, alone, free]

/-- A pass without an eligible slot chooses nothing (R82). -/
theorem choice_of_none_eligible (h : ∀ k, s.eligible k = false) : s.choice = none := by
  unfold choice
  rw [s.winner_eq_none_iff.2 h]

/-- The only eligible slot wins (R82). -/
theorem winner_of_sole (e : s.eligible k = true) (others : ∀ j, j ≠ k → s.slot j = Slot.empty) :
    s.winner = some k := by
  cases w : s.winner with
  | none => exact absurd e (by simp [s.winner_eq_none_iff.1 w k])
  | some j =>
    by_cases same : j = k
    · rw [same]
    · exact absurd (s.eligible_winner j w) (by simp [eligible_of_empty (others j same)])

theorem choice_of_winner {o : Order} (w : s.winner = some k) (order : (s.slot k).order = some o)
    (chosen : s.chooseUnit o.gate = some u) : s.choice = some (k, o.gate, u) := by
  simp only [choice, w, order, chosen]

/-- A round ends after the first grant that leaves nothing to choose (R76). -/
theorem finish_of_one_grant {t : State} (m : MarksClear s) (m' : MarksClear t)
    (first : s.openRound.choice = some (k, g, u)) (grant : s.openRound.grant k g u = t.openRound)
    (second : t.openRound.choice = none) : s.openRound.finish = t := by
  have clear : s.marks = ⟨false, false⟩ := m
  have clear' : t.marks = ⟨false, false⟩ := m'
  have passes : State.passes 3 s.openRound = t.openRound := by
    simp only [State.passes, first, grant, second]
  have closed : t.openRound.closeRound = t :=
    congrArg (fun x => ({ t with marks := x } : State)) (by simp [clear'])
  rw [finish_of_no_report (by simp [clear]), takeRound, passes, closed]
  exact if_pos rfl

/-! ### The grant at the unit's controller (R84, R95 to R97) -/

/-- An IDLE unit lines up to the gate (R96, R100). -/
theorem grantUnit_of_idle (k : SlotNo) (g : GateNo) (h : (s.unit u).state = .idle) :
    s.grantUnit u k g = s.setUnit u ((s.unit u).toLiningUp k g) := by
  unfold grantUnit
  rw [h]
  rfl

theorem grantUnit_of_off (k : SlotNo) (g : GateNo) (h : (s.unit u).state = .off) :
    s.grantUnit u k g = s.requestStart u k g := by
  unfold grantUnit
  rw [h]

theorem starting_eq_none (h : ∀ v, (s.unit v).state ≠ .starting) : s.starting = none :=
  List.find?_eq_none.2 fun v _ starts => h v (beq_iff_eq.1 starts)

theorem starting_ne_none {v : UnitNo} (h : (s.unit v).state = .starting) : s.starting ≠ none :=
  fun no => starting_none no v h

/-- With the starter free, the unit enters STARTING (R95). -/
theorem requestStart_of_vacant (k : SlotNo) (g : GateNo) (fault : (s.unitInput u).fault = false)
    (vacant : s.starting = none) :
    s.requestStart u k g = s.setUnit u { s.unit u with slot := some k, gate := some g }.toStarting := by
  unfold requestStart
  rw [vacant, fault]
  rfl

/-- With another unit STARTING, the unit enters START_QUEUED at the back of the queue (R95). -/
theorem requestStart_of_taken (k : SlotNo) (g : GateNo) (fault : (s.unitInput u).fault = false)
    (taken : s.starting ≠ none) :
    s.requestStart u k g = (s.setUnit u ((s.unit u).toQueued k g)).setStartQueue (s.startQueue ++ [u]) := by
  obtain ⟨v, starts⟩ := Option.ne_none_iff_exists'.1 taken
  unfold requestStart
  rw [starts, fault]
  rfl

/-- With its fault input ASSERTED and nobody queued, the unit goes OUT_OF_SERVICE and the grant is returned (R97). -/
theorem requestStart_of_fault (k : SlotNo) (g : GateNo) (fault : (s.unitInput u).fault = true)
    (queue : s.startQueue = []) : s.requestStart u k g = (s.takeOut u .fault).returnGrant k := by
  have passed : State.passStarter s.startQueue (s.takeOut u .fault) = s.takeOut u .fault := by
    rw [queue]
    exact congrArg (fun q => ({ s.takeOut u .fault with startQueue := q } : State)) queue.symm
  unfold requestStart
  rw [fault]
  split
  · next h => cases h
  · next h => cases h
  · rw [passed]
  · rfl

end State

/-! ### The one order of an empty table -/

/-- The slot as an order without a trigger is written into it by the host (R50). -/
def Slot.posted (o : Order) : Slot := { Slot.empty with state := .pending, order := some o }

/-- The table with the order that was posted in slot `k` GRANTED now to unit `u` (R53). -/
def State.granted (s : State) (k : SlotNo) (o : Order) (u : UnitNo) : State :=
  s.setSlot k ((Slot.posted o).grantedBy u s.clock)

section

variable {s : State} {n : Byte} {k : SlotNo} {g : GateNo} {u : UnitNo} {o : Order} {f : RawOrder}

/-- In RUN, over an empty table, order `o` can be granted: its gate is PARKED without the level-required mark and unit `u`
is chosen for it. -/
structure Grantable (s : State) (o : Order) (u : UnitNo) : Prop where
  mode : s.mode = .run
  table : ∀ j, s.slot j = Slot.empty
  parked : (s.gate o.gate).state = .parked
  level : (s.gate o.gate).levelRequired = false
  chosen : s.chooseUnit o.gate = some u

/-- With one slot written, every other slot of the table is empty. -/
theorem Grantable.others (h : Grantable s o u) (r : Slot) (j : SlotNo) (ne : j ≠ k) :
    (s.setSlot k r).slot j = Slot.empty := by
  rw [s.slot_setSlot_ne r ne.symm, h.table]

/-- The order meets the six conditions (R79). -/
theorem Grantable.eligible (h : Grantable s o u) (k : SlotNo) : (s.setSlot k (.posted o)).eligible k = true := by
  have alone : (s.setSlot k (.posted o)).gateTaken o.gate k = false := by
    refine List.any_eq_false.2 fun j _ => ?_
    by_cases same : j = k
    · simp [same]
    · simp [h.others _ j same, Slot.isFor, Slot.empty]
  have free : (s.setSlot k (.posted o)).freePermitted o.gate ≠ [] := List.ne_nil_of_mem (State.chooseUnit_mem h.chosen)
  exact State.eligible_of_conditions (by simp [Slot.posted]) (by simp [Slot.posted]) h.mode h.parked h.level alone free

/-- The order is chosen with its unit (R82, R83). -/
theorem Grantable.choice (h : Grantable s o u) (k : SlotNo) :
    (s.setSlot k (.posted o)).openRound.choice = some (k, o.gate, u) :=
  State.choice_of_winner (State.winner_of_sole (h.eligible k) fun j ne => h.others _ j ne) (by simp [Slot.posted])
    h.chosen

/-- The grant writes the slot and hands the reservation to the unit (R53, R84). -/
theorem State.grant_posted (s : State) (k : SlotNo) (g : GateNo) (u : UnitNo) (o : Order) :
    (s.setSlot k (.posted o)).openRound.grant k g u =
      (s.granted k o u).openRound.grantUnit u k g := by
  have slot : (s.setSlot k (.posted o)).openRound.modSlot k (fun r => r.grantedBy u s.clock) =
      (s.granted k o u).openRound := by
    unfold State.modSlot
    rw [State.slot_openRound, State.slot_setSlot_self]
    exact congrArg State.openRound (s.setSlot_setSlot k _ _)
  exact congrArg (fun t : State => t.grantUnit u k g) slot

/-- Once the order is GRANTED no slot waits. -/
theorem Grantable.noneWaits (h : Grantable s o u) (k : SlotNo) : NoneWaits (s.granted k o u) := by
  intro j
  unfold State.granted
  by_cases same : j = k
  · simp [same, Slot.grantedBy]
  · simp [h.others _ j same, Slot.empty]

/-- The round grants the order, and the slot stays GRANTED (R78, R84). -/
theorem Grantable.finish (h : Grantable s o u) (m : MarksClear s) {t : State} (m' : MarksClear t)
    (unit : (s.granted k o u).openRound.grantUnit u k o.gate = t.openRound)
    (slots : t.slots = (s.granted k o u).slots) : (s.setSlot k (.posted o)).openRound.finish = t := by
  have noneWaits : NoneWaits t.openRound := fun j waits =>
    h.noneWaits k j ((congrArg (fun v => (v.get j).state) slots).symm.trans waits)
  exact State.finish_of_one_grant (s := s.setSlot k (.posted o)) m m' (h.choice k)
    ((s.grant_posted k o.gate u o).trans unit) (State.choice_of_noneWaits noneWaits)

/-- A standing fault returns the grant at once: the slot is PENDING as it was posted, the unit OUT_OF_SERVICE (R56, R97). -/
theorem State.returnGrant_of_fault (s : State) (k : SlotNo) (u : UnitNo) (o : Order) :
    ((s.granted k o u).openRound.takeOut u .fault).returnGrant k =
      (goesOut (s.setSlot k (.posted o)) u .fault).openRound := by
  have out : (s.granted k o u).openRound.takeOut u .fault =
      (s.openRound.takeOut u .fault).setSlot k ((Slot.posted o).grantedBy u s.clock) := rfl
  unfold State.returnGrant State.modSlot
  rw [out, State.slot_setSlot_self, State.setSlot_setSlot]
  exact if_pos rfl

/-- With the only permitted unit OUT_OF_SERVICE, the posted order is not eligible (R79, condition 6). -/
theorem Grantable.not_eligible_of_goesOut (h : Grantable s o u)
    (only : ∀ v, v ≠ u → (s.gate o.gate).params.permits v = false) (j : SlotNo) :
    (goesOut (s.setSlot k (.posted o)) u .fault).openRound.eligible j = false := by
  have noUnit : (goesOut (s.setSlot k (.posted o)) u .fault).openRound.freePermitted o.gate = [] := by
    refine (State.freePermitted_eq_nil_iff _ _).2 fun v ⟨free, permitted⟩ => ?_
    by_cases same : v = u
    · subst same
      simp [State.unitFree, goesOut] at free
    · have forbidden : (s.gate o.gate).params.permits v = false := only v same
      exact absurd permitted (by simp [goesOut, forbidden])
  by_cases same : j = k
  · subst same
    have slot : (goesOut (s.setSlot j (.posted o)) u .fault).openRound.slot j = .posted o := s.slot_setSlot_self j _
    exact State.eligible_of_no_unit (congrArg Slot.order slot) noUnit
  · exact State.eligible_of_empty (h.others _ j same)

/-- The round grants the order to a faulty OFF unit, which no other replaces: the grant is returned (R97). -/
theorem Grantable.finish_of_fault (h : Grantable s o u) (k : SlotNo) (m : MarksClear s) (off : (s.unit u).state = .off)
    (fault : (s.unitInput u).fault = true) (queue : s.startQueue = [])
    (only : ∀ v, v ≠ u → (s.gate o.gate).params.permits v = false) :
    (s.setSlot k (.posted o)).openRound.finish = goesOut (s.setSlot k (.posted o)) u .fault := by
  have grant : (s.setSlot k (.posted o)).openRound.grant k o.gate u =
      (goesOut (s.setSlot k (.posted o)) u .fault).openRound := by
    rw [s.grant_posted k, State.grantUnit_of_off k _ (by exact off),
      State.requestStart_of_fault k _ (by exact fault) (by exact queue), s.returnGrant_of_fault]
  exact State.finish_of_one_grant (s := s.setSlot k (.posted o)) m (by exact m) (h.choice k) grant
    (State.choice_of_none_eligible (h.not_eligible_of_goesOut only))

/-- POST_ORDER over an empty table writes the order and opens a round (R50, R70). -/
theorem OrderPasses.serve_sole (pass : OrderPasses s k g f) (table : ∀ j, s.slot j = Slot.empty) (lock : s.lock = none)
    (trigger : f.triggerPresence = 0) :
    s.serve (.postOrder k.val f) = (s.setSlot k (.posted (orderOf f g))).openRound.taken := by
  have serve := pass.serve (by simp [table k, Slot.empty])
  rwa [State.postOrder_of_host _ (by simp [table k, Slot.empty]) (by simp [table k, Slot.empty]),
    State.writeOrder_of_no_trigger _ _ (orderOf_trigger_none g trigger),
    State.rewritten_of_unlocked _ (by simp [lock])] at serve

end

end Sys2Proof.Machine

namespace Sys2Proof.Proofs

open Sys2Proof.Machine Sys2Proof.Safety

/-- Settles O37: by what the grant does at the controller of the chosen unit. -/
theorem roundGrantsSoleOrder : Obligations.RoundGrantsSoleOrder := by
  unfold Obligations.RoundGrantsSoleOrder
  intro n k g u f s l m mode table lock fields gate trigger parked level target rule chosen granted
  have pass : OrderPasses s k g f := ⟨fields, gate, by simp [parked], target, rule⟩
  have post : Grantable s (orderOf f g) u := ⟨mode, table, parked, level, chosen⟩
  have test : s.modeTest (.postOrder k.val f) = none := State.modeTest_of_anyMode (by simp [mode]) rfl (by simp)
  have serve := pass.serve_sole table lock trigger
  refine ⟨fun idle => ?idle, fun off fault vacant => ?starts, fun off fault taken => ?queues,
    fun off fault queue only => ?out⟩
  case idle =>
    have ends := post.finish (t := granted.setUnit u ((s.unit u).toLiningUp k g)) m m
      (State.grantUnit_of_idle (s := granted.openRound) k g idle) rfl
    exact request_served l test (by simp) (serve.trans (State.taken_of_finish ends)) rfl
  case starts =>
    have starts := State.requestStart_of_vacant (s := granted.openRound) k g fault (State.starting_eq_none vacant)
    have ends := post.finish
      (t := granted.setUnit u ({ s.unit u with slot := some k, gate := some g } : PowerUnit).toStarting) m m
      ((State.grantUnit_of_off (s := granted.openRound) k g off).trans starts) rfl
    exact request_served l test (by simp) (serve.trans (State.taken_of_finish ends)) rfl
  case queues =>
    obtain ⟨v, starting⟩ := taken
    have queues := State.requestStart_of_taken (s := granted.openRound) k g fault
      (State.starting_ne_none (v := v) starting)
    have ends := post.finish
      (t := ({ granted with startQueue := s.startQueue ++ [u] } : State).setUnit u ((s.unit u).toQueued k g)) m m
      ((State.grantUnit_of_off (s := granted.openRound) k g off).trans queues) rfl
    exact request_served l test (by simp) (serve.trans (State.taken_of_finish ends)) rfl
  case out =>
    have ends := post.finish_of_fault k m off fault queue only
    exact request_answered l test (by simp) (serve.trans (State.taken_of_finish ends))

end Sys2Proof.Proofs
end

section
/-! The front of the queue of commands, and the requests that write one small setting (R91, R108, R203). -/

namespace Sys2Proof.Machine

open Sys2Proof.Safety

/-! ### The step (log 1) -/

theorem step_front (i : Instr) (s : State) : step { s with pending := i :: s.pending } = exec i s := rfl

theorem step_idle {s : State} (h : s.pending = []) : step s = .next s := by
  unfold step
  rw [h]

/-! ### CONFIGURE_ARBITER and CONFIGURE_UNIT -/

@[simp] theorem unitOf_val (u : UnitNo) : unitOf u.val = some u := dif_pos u.isLt

/-- CONFIGURE_UNIT with an idle_time in range (R108). -/
theorem State.serveUnit_of_range {s : State} (u : UnitNo) {x : Nat} (lo : 10 ≤ x) (hi : x ≤ 600) :
    s.serveUnit u.val x = (s.setUnit u { s.unit u with idleTime := x }).taken := by
  have pass : firstBad [(2, inNat 10 600 x)] = none := by simp [firstBad, inNat_eq_true lo hi]
  rw [State.serveUnit, unitOf_val, State.named_some, State.checked_pass s _ pass]
  rfl

/-! ### SET_NOTICES -/

/-- A flag as the number a request carries for it (R206). -/
def flagNat (b : Bool) : Nat := if b then 1 else 0

/-- Flags pass the checks of SET_NOTICES (R203). -/
theorem firstBad_noticeChecks (i : Nat) (l : List Bool) : firstBad (noticeChecks i (l.map flagNat)) = none := by
  induction l generalizing i with
  | nil => rfl
  | cons b l ih =>
    have range : inNat 0 1 (flagNat b) = true := by cases b <;> rfl
    rw [List.map_cons, noticeChecks, firstBad_cons_of_true _ _ range, ih]

/-- The enables are read back from their flags (R203). -/
theorem enables_of_flags (e : Vector Bool 10) :
    (Vector.ofFn fun i : Fin 10 => ((e.toList.map flagNat).getD i.val 0) == 1) = e := by
  ext i hi
  cases b : e[i] <;> simp [flagNat, b]

/-- The reply to SET_NOTICES carries the enables (R203). -/
theorem enables_reply (e : Vector Bool 10) :
    ((List.finRange 10).map fun i => if e.get i then (1 : Byte) else 0) = e.toList.map fun b => if b then 1 else 0 :=
  List.ext_getElem (by simp) fun i _ _ => by simp [Vector.get_eq_getElem]

/-- SET_NOTICES replaces the ten enables and replies with them (R203). -/
theorem State.serveSetNotices_flags (s : State) (e : Vector Bool 10) :
    s.serveSetNotices (e.toList.map flagNat) =
      (.ok (e.toList.map fun b => if b then 1 else 0), s.setLink { s.link with enables := e }) := by
  rw [State.serveSetNotices, State.checked_pass s _ (firstBad_noticeChecks 0 e.toList)]
  simp only [enables_of_flags, enables_reply]

end Sys2Proof.Machine

namespace Sys2Proof.Proofs

open Sys2Proof.Machine Sys2Proof.Safety

/-- Settles O1: by the two forms of the queue. -/
theorem stepRunsFrontCommand : Obligations.StepRunsFrontCommand := by
  unfold Obligations.StepRunsFrontCommand
  exact ⟨step_front, fun _ => step_idle⟩

/-- Settles O16: each request passes its checks and leaves the line alone. -/
theorem configureSmallSettings : Obligations.ConfigureSmallSettings := by
  unfold Obligations.ConfigureSmallSettings
  refine ⟨fun n s l m mode => ⟨?priority, ?slotOrder, fun u x lo hi => ?unit⟩, fun n e s l mode => ?notices⟩
  case priority => exact request_served (r := .configureArbiter 0) l (State.modeTest_of_config mode _) (by simp) rfl rfl
  case slotOrder => exact request_served (r := .configureArbiter 1) l (State.modeTest_of_config mode _) (by simp) rfl rfl
  case unit =>
    have serve : s.serve (.configureUnit u.val x) = _ := State.serveUnit_of_range u lo hi
    exact request_served l (State.modeTest_of_config mode _) (by simp)
      (serve.trans (State.taken_of_marksClear (s := s.setUnit u _) m)) rfl
  case notices =>
    exact request_served (r := .setNotices (e.toList.map flagNat)) l (State.modeTest_of_anyMode mode rfl (by simp))
      (by simp) (s.serveSetNotices_flags e) rfl

end Sys2Proof.Proofs
end

section
/-! The laws of the units through every command (R93, R95). The outputs of the units follow the writes of `Written`. The
law of the starter has to be led through the operations themselves: beside the events of a unit (`Laws/Starter.lean`)
the units are written by the grants of a round, by abandoned grants and by the gates' releases alone, and each of these
keeps the law. -/

namespace Sys2Proof.Safety.StarterLawful

open Sys2Proof.Machine

variable {s : State}

theorem ite {a b : State} {p : Prop} [Decidable p] (ha : StarterLawful a) (hb : StarterLawful b) :
    StarterLawful (if p then a else b) := by
  split
  · exact ha
  · exact hb

theorem foldl {α : Type} {f : State → α → State} (hf : ∀ {s x}, StarterLawful s → StarterLawful (f s x)) {l : List α}
    (h : StarterLawful s) : StarterLawful (l.foldl f s) := by
  induction l generalizing s with
  | nil => exact h
  | cons x l ih => exact ih (hf h)

/-! ### The arbiter -/

/-- The passes of a round (R84, R85). -/
theorem passes {n : Nat} (h : StarterLawful s) : StarterLawful (State.passes n s) := by
  induction n generalizing s with
  | zero => exact h
  | succ n ih =>
    unfold State.passes
    split
    · exact h
    · next k g u _ => exact ih (StarterLawful.grantUnit (s := s.modSlot k fun r => r.grantedBy u s.clock) h u k g)

theorem takeRound (h : StarterLawful s) : StarterLawful s.takeRound := ite (passes h) h

/-! ### The order table -/

theorem handBackOf {old : Slot} (h : StarterLawful s) : StarterLawful (s.handBackOf old) :=
  Machine.StarterLawful.handBackOf h old

theorem releaseUnit {u : Option UnitNo} (h : StarterLawful s) : StarterLawful (s.releaseUnit u) :=
  Machine.StarterLawful.releaseUnit h u

theorem noteRunning (h : StarterLawful s) : StarterLawful s.noteRunning := ite h h

theorem offer {k : SlotNo} (h : StarterLawful s) : StarterLawful (s.offer k) := ite h h

theorem complete {k : SlotNo} {e : Ending} (h : StarterLawful s) : StarterLawful (s.complete k e) := by
  unfold State.complete
  simp only
  split
  · exact h
  · exact offer h

theorem completeRunning {k : SlotNo} {o : OrderOutcome} {c : Option TripCause} {l r : Option Int}
    (h : StarterLawful s) : StarterLawful (s.completeRunning k o c l r) := ite (noteRunning (complete h)) h

theorem completeGranted {k : SlotNo} {o : OrderOutcome} {c : Option TripCause} {l r : Option Int}
    (h : StarterLawful s) : StarterLawful (s.completeGranted k o c l r) := ite (handBackOf (complete h)) h

theorem dropLock {k : SlotNo} (h : StarterLawful s) : StarterLawful (s.dropLock k) := ite h h

theorem freeSlot {k : SlotNo} (h : StarterLawful s) : StarterLawful (s.freeSlot k) :=
  have freed : StarterLawful ((s.setSlot k Slot.empty).dropLock k) := dropLock h
  ite freed freed

theorem dropOrder {k : SlotNo} (h : StarterLawful s) : StarterLawful (s.dropOrder k) := ite (noteRunning (freeSlot h)) h

theorem writeOrder {k : SlotNo} {o : Order} {w : Owner} (h : StarterLawful s) : StarterLawful (s.writeOrder k o w) :=
  have written : StarterLawful ((s.setSlot k (Slot.written o w)).dropLock k) := dropLock h
  ite written written

theorem ungrant {k : SlotNo} (h : StarterLawful s) : StarterLawful (s.ungrant k) := ite (handBackOf h) h

theorem resetSlot {k : SlotNo} (h : StarterLawful s) : StarterLawful (s.resetSlot k) := ite h (handBackOf h)

theorem releaseLock {k : SlotNo} (h : StarterLawful s) : StarterLawful (s.releaseLock k) := ite h (offer h)

theorem releaseOther {k : SlotNo} (h : StarterLawful s) : StarterLawful (s.releaseOther k) := by
  unfold State.releaseOther
  split
  · exact ite h (releaseLock h)
  · exact h

theorem takeLock {k : SlotNo} (h : StarterLawful s) : StarterLawful (s.takeLock k) := ite h h

theorem matchSlot {e : TideEvent} {k : SlotNo} (h : StarterLawful s) : StarterLawful (State.matchSlot e s k) :=
  ite (ite h h) h

theorem handEvent {e : TideEvent} (h : StarterLawful s) : StarterLawful (s.handEvent e) := ite h (foldl matchSlot h)

/-! ### Trips, locking, parking -/

theorem endOrder {r : GateRec} {o : OrderOutcome} {c : Option TripCause} (h : StarterLawful s) :
    StarterLawful (s.endOrder r o c) := by
  unfold State.endOrder
  split
  · exact h
  · exact ite (dropOrder h) (completeRunning h)

theorem tripGate {g : GateNo} {c : TripCause} {f : BitVec 7} {e : Concern} (h : StarterLawful s) :
    StarterLawful (s.tripGate g c f e) := by
  unfold State.tripGate
  simp only
  split
  · split
    · exact completeGranted h
    · exact h
  · exact releaseUnit (endOrder h)

theorem encoderFault {g : GateNo} {e : HoistEnd} (h : StarterLawful s) : StarterLawful (s.encoderFault g e) := by
  unfold State.encoderFault
  split
  · exact h
  · exact h
  · exact tripGate h

theorem park {g : GateNo} (h : StarterLawful s) : StarterLawful (s.park g) := by
  have ended := endOrder (s := s.setGate g (s.gate g).parked) (r := s.gate g)
    (o := (s.gate g).move.outcome.getD .stopped) (c := none) h
  exact releaseUnit ended

theorem enterLocking {g : GateNo} {o : OrderOutcome} (h : StarterLawful s) : StarterLawful (s.enterLocking g o) :=
  ite (park h) h

theorem countQuiet {g : GateNo} (h : StarterLawful s) : StarterLawful (s.countQuiet g) :=
  ite (ite (enterLocking h) h) h

theorem startMove {g : GateNo} {k : SlotNo} {u : UnitNo} {o : Order} {t : Option Int} {b : Bool}
    (h : StarterLawful s) : StarterLawful (s.startMove g k u o t b) := ite h h

/-! ### Pops and TRAVEL -/

theorem pop {g : GateNo} (h : StarterLawful s) : StarterLawful (s.pop g) := by
  unfold State.pop
  simp only
  split
  · exact h
  · split
    · split
      · exact h
      · exact h
    · split
      · exact h
      · exact h

theorem streamReach {n : Nat} {g : GateNo} (h : StarterLawful s) : StarterLawful (State.streamReach n g s) := by
  induction n generalizing s with
  | zero => exact h
  | succ n ih => exact ite h (ite (enterLocking h) (ite h (ite h (ih (pop h)))))

theorem reachTest {g : GateNo} (h : StarterLawful s) : StarterLawful (s.reachTest g) := by
  unfold State.reachTest
  simp only
  split
  · exact streamReach h
  · exact ite h h

theorem setValves {g : GateNo} (h : StarterLawful s) : StarterLawful (s.setValves g) := ite h h

theorem travelEntry {g : GateNo} (h : StarterLawful s) : StarterLawful (s.travelEntry g) := by
  unfold State.travelEntry
  simp only
  split
  · exact tripGate h
  · exact setValves (reachTest h)

theorem enterTravel {g : GateNo} (h : StarterLawful s) : StarterLawful (s.enterTravel g) := by
  unfold State.enterTravel
  simp only
  split
  · exact ite (enterLocking h) (ite (travelEntry h) (ite h (travelEntry (pop h))))
  · exact travelEntry h
  · exact travelEntry h

theorem checkFall {g : GateNo} (h : StarterLawful s) : StarterLawful (s.checkFall g) := by
  unfold State.checkFall
  split
  · unfold State.retarget
    simp only
    split
    · exact setValves (reachTest h)
    · exact h
    · exact ite (enterTravel h) h
    · exact h
  · exact h

/-- The manifold of a LINING_UP unit is lined up: the unit is ASSIGNED, or released again (R54, R55, R100). -/
theorem linedUp {u : UnitNo} {k : SlotNo} {g : GateNo} (st : (s.unit u).state = .liningUp) (h : StarterLawful s) :
    StarterLawful (s.linedUp u k g) := by
  have assigned : StarterLawful (s.modUnit u fun p => p.toAssigned g) :=
    StarterLawful.aside h u _ (st ▸ .liningUp) .assigned
  unfold State.linedUp
  simp only
  split
  · split
    · exact startMove assigned
    · exact releaseUnit (complete assigned)
  · exact releaseUnit assigned

/-! ### Samples, feedback, timers, stops -/

theorem travelSample {g : GateNo} {e : HoistEnd} (h : StarterLawful s) : StarterLawful (s.travelSample g e) := by
  unfold State.travelSample
  simp only
  split
  · exact tripGate h
  · have reached : StarterLawful ((s.modGate g fun r => r.modEnd e EndRec.watch).reachTest g) := reachTest h
    exact ite reached reached

theorem encoderSample {g : GateNo} {ch : Channel} {c p t : Nat} (h : StarterLawful s) :
    StarterLawful (s.encoderSample g ch c p t) := by
  refine ite h ?_
  split
  · exact encoderFault h
  · unfold State.afterSample
    split
    · exact ite (enterTravel h) h
    · exact travelSample h
    · exact ite (tripGate h) (countQuiet h)
    · exact ite (tripGate h) h
    · exact h

theorem encoderSilence {g : GateNo} {e : HoistEnd} (h : StarterLawful s) : StarterLawful (s.encoderSilence g e) := by
  unfold State.encoderSilence
  simp only
  split
  · exact h
  · exact ite h (encoderFault h)

theorem pinChanged {g : GateNo} {e : HoistEnd} (h : StarterLawful s) : StarterLawful (s.pinChanged g e) := by
  unfold State.pinChanged
  simp only
  split
  · exact ite h h
  · exact ite h (tripGate h)
  · exact ite h (tripGate h)
  · exact ite h (tripGate h)
  · exact ite h (tripGate h)
  · exact ite (park h) h
  · exact ite h h
  · exact h

theorem stopMove {g : GateNo} (h : StarterLawful s) : StarterLawful (s.stopMove g) := by
  unfold State.stopMove
  split
  · exact enterLocking h
  · exact enterLocking h
  · exact enterLocking h
  · exact enterLocking h
  · exact enterLocking h
  · exact h
  · exact h

theorem cutStream {g : GateNo} (h : StarterLawful s) : StarterLawful (s.cutStream g) := by
  refine ite ?_ h
  split
  · exact h
  · exact h
  · exact h
  · exact enterLocking h
  · exact h

theorem resetMove {g : GateNo} (h : StarterLawful s) : StarterLawful (s.resetMove g) := by
  unfold State.resetMove
  split
  · exact enterLocking h
  · exact enterLocking h
  · exact enterLocking h
  · exact enterLocking h
  · exact enterLocking h
  · exact h
  · exact h

/-- A unit's fault, in the state the unit is in (R104). -/
theorem faultAsserted {u : UnitNo} (h : StarterLawful s) : StarterLawful (s.faultAsserted u) := by
  unfold State.faultAsserted
  split
  · next st =>
    have out : StarterLawful (s.takeOut u .fault) := StarterLawful.takeOut h u _ (st ▸ .assigned)
    unfold State.assignedFault
    simp only
    split
    · exact ite (tripGate out) out
    · exact out
  · exact StarterLawful.unitFault h u

/-! ### The sequence runner -/

theorem endIfEmpty (h : StarterLawful s) : StarterLawful s.endIfEmpty := ite h h

theorem withdraw {k : SlotNo} (h : StarterLawful s) : StarterLawful (s.withdraw k) := ite (handBackOf (freeSlot h)) h

theorem windDown {o : EndOutcome} {c : Option FailCause} {k : Option SlotNo} (h : StarterLawful s) :
    StarterLawful (s.windDown o c k) := endIfEmpty (foldl withdraw h)

theorem interfere {k : SlotNo} (h : StarterLawful s) : StarterLawful (s.interfere k) := by
  refine ite ?_ h
  simp only
  split
  · exact windDown h
  · exact endIfEmpty h
  · exact h

theorem stopRunner (h : StarterLawful s) : StarterLawful s.stopRunner := by
  unfold State.stopRunner
  split
  · exact windDown h
  · exact windDown h
  · exact windDown h
  · exact h

theorem postStep {d : SequenceDef} {i : StepNo} {c : List (GateNo × Int)} {f : List SlotNo} (h : StarterLawful s) :
    StarterLawful (s.postStep d i c f) := foldl (l := c.zip f) (fun h => writeOrder h) h

theorem attemptOnce (h : StarterLawful s) : StarterLawful s.attemptOnce := by
  unfold State.attemptOnce
  simp only
  split
  · exact ite h (ite (windDown h) (ite (windDown h) (ite h (postStep h))))
  · exact h

theorem dwellNext (h : StarterLawful s) : StarterLawful s.dwellNext := by
  unfold State.dwellNext
  split
  · exact ite h (ite h h)
  · exact h

theorem runOn {n : Nat} (h : StarterLawful s) : StarterLawful (State.runOn n s) := by
  induction n generalizing s with
  | zero => exact h
  | succ n ih => exact ite (ite (ih (attemptOnce (dwellNext h))) (dwellNext h)) h

theorem attempt (h : StarterLawful s) : StarterLawful s.attempt := runOn (attemptOnce h)

theorem dwellEvent (h : StarterLawful s) : StarterLawful s.dwellEvent :=
  ite (ite (attempt (dwellNext h)) (dwellNext h)) h

theorem dueAttempt (h : StarterLawful s) : StarterLawful s.dueAttempt :=
  ite (attempt (s := s.modRunner fun r => { r with attemptsDue := r.attemptsDue - 1 }) h) h

theorem collect {k : SlotNo} (h : StarterLawful s) : StarterLawful (s.collect k) := by
  refine ite ?_ h
  simp only
  split
  · refine ite h ?_
    have freed : StarterLawful ((s.modRunner fun r => { r with offers := r.offers.erase k }).freeSlot k) := freeSlot h
    unfold State.collected
    simp only
    split
    · exact ite (ite (runOn freed) freed) (windDown freed)
    · exact endIfEmpty freed
  · exact interfere h

/-! ### Mode control and the end of an event -/

theorem markReport {b : Bool} (h : StarterLawful s) : StarterLawful (s.markReport b) := h

theorem resetEndTest (h : StarterLawful s) : StarterLawful s.resetEndTest := ite h h

theorem takeReport (h : StarterLawful s) : StarterLawful s.takeReport := by
  refine ite ?_ h
  simp only
  split
  · exact h
  · exact resetEndTest h
  · exact h

/-- The end of an event (R78, R189). -/
theorem finish (h : StarterLawful s) : StarterLawful s.finish := takeRound (takeReport h)

theorem beginHold (h : StarterLawful s) : StarterLawful s.beginHold := noteRunning (foldl cutStream (foldl ungrant h))

theorem stopItem {i : StopItem} (h : StarterLawful s) : StarterLawful (s.stopItem i) := by
  unfold State.stopItem
  split
  · exact stopMove h
  · split
    · exact completeGranted h
    · exact h
  · exact stopRunner h

theorem giveStops (h : StarterLawful s) : StarterLawful s.giveStops := noteRunning (foldl stopItem (ite h h))

theorem beginStop (h : StarterLawful s) : StarterLawful s.beginStop :=
  giveStops (s := s.changeMode .draining (some .stop) .request) h

theorem resetRunner (h : StarterLawful s) : StarterLawful s.resetRunner := h

/-- The start of warm reset at the blocks (R190, step 4). -/
theorem resetBlocks (h : StarterLawful s) : StarterLawful s.resetBlocks := by
  have slots : StarterLawful (allSlots.foldl State.resetSlot (s.setLock none)) := foldl resetSlot h
  have gates : StarterLawful (allGates.foldl State.resetMove (allSlots.foldl State.resetSlot (s.setLock none))) :=
    foldl resetMove slots
  exact resetRunner gates

theorem warmReset {r : Reply} (h : StarterLawful s) : StarterLawful (s.warmReset r) := by
  have begun : StarterLawful (((s.setLink { s.link with replies := [], notices := [] }).placeReply r).changeMode
      .resetting none .request) := h
  exact takeRound (markReport (resetEndTest (resetBlocks begun)))

theorem afterTide {res : Tide × List TideEvent × HeadChange} (h : StarterLawful s) : StarterLawful (s.afterTide res) :=
  foldl handEvent (takeReport (foldl checkFall (ite h h)))

theorem gaugeSilence {g : Gauge} (h : StarterLawful s) : StarterLawful (s.gaugeSilence g) := by
  unfold State.gaugeSilence
  split
  · exact afterTide h
  · exact h

/-! ### Requests -/

theorem taken (h : StarterLawful s) : StarterLawful s.taken.2 := finish h

theorem answer_ite {a b : Answer × State} {p : Prop} [Decidable p] (ha : StarterLawful a.2) (hb : StarterLawful b.2) :
    StarterLawful (if p then a else b).2 := by
  split
  · exact ha
  · exact hb

theorem checked {l : List (Nat × Bool)} {a : Answer × State} (h : StarterLawful s) (ha : StarterLawful a.2) :
    StarterLawful (s.checked l a).2 := by
  unfold State.checked
  split
  · exact h
  · exact ha

theorem named {α : Type} {x : Option α} {f : α → Answer × State} (h : StarterLawful s)
    (hf : ∀ a, StarterLawful (f a).2) : StarterLawful (s.named x f).2 := by
  unfold State.named
  split
  · exact hf _
  · exact h

theorem withMode {st : Status} (h : StarterLawful s) : StarterLawful (State.withMode st s).2 := h

theorem serveRun (h : StarterLawful s) : StarterLawful s.serveRun.2 := by
  have run : StarterLawful s.toRun.finish := finish h
  unfold State.serveRun
  split
  · exact answer_ite (withMode run) h
  · exact h
  · exact h
  · exact withMode run
  · exact h

theorem serveHold (h : StarterLawful s) : StarterLawful s.serveHold.2 := by
  unfold State.serveHold
  split
  · exact withMode (finish (beginHold h))
  · exact h
  · exact h

theorem serveStopAll (h : StarterLawful s) : StarterLawful s.serveStopAll.2 := by
  have begun : StarterLawful s.beginStop.finish := finish (beginStop h)
  unfold State.serveStopAll
  split
  · exact withMode begun
  · exact withMode (finish (giveStops h))
  · exact withMode begun
  · exact withMode (finish (stopRunner h))
  · exact h

theorem serveStopGate {g : Nat} (h : StarterLawful s) : StarterLawful (s.serveStopGate g).2 := by
  refine named h fun g => ?_
  simp only
  split
  · exact h
  · exact h
  · exact h
  · exact taken (completeGranted h)
  · exact taken (stopMove h)

theorem serveClearTrip {g : Nat} (h : StarterLawful s) : StarterLawful (s.serveClearTrip g).2 := by
  refine named h fun g => ?_
  simp only
  split
  · exact h
  · exact answer_ite (taken h) h
  · exact h

theorem interfereIf {old : Slot} {k : SlotNo} (h : StarterLawful s) : StarterLawful (s.interfereIf old k) :=
  ite (interfere h) h

theorem servePostOrder {k : Nat} {f : RawOrder} (h : StarterLawful s) : StarterLawful (s.servePostOrder k f).2 :=
  checked h <| named h fun _ => named h fun _ => answer_ite h <| answer_ite h <| answer_ite h <| answer_ite h <|
    taken (interfereIf (handBackOf (writeOrder h)))

theorem serveWithdraw {k : Nat} (h : StarterLawful s) : StarterLawful (s.serveWithdraw k).2 := by
  refine named h fun k => ?_
  split
  · exact taken h
  · exact h
  · exact taken (interfereIf (handBackOf (freeSlot h)))

/-- CONFIGURE_UNIT leaves the state of the unit (R108). -/
theorem serveUnit {u t : Nat} (h : StarterLawful s) : StarterLawful (s.serveUnit u t).2 :=
  named h fun u => checked h (taken (StarterLawful.same h u _ rfl))

/-- SET_UNIT_SERVICE writes units apart from the starter alone (R106, R107). -/
theorem serveService {u v : Nat} (h : StarterLawful s) : StarterLawful (s.serveService u v).2 := by
  refine named h fun u => ?_
  split
  · unfold State.serveServiceOut
    split
    · next st => exact taken (StarterLawful.takeOut h u _ (st ▸ .off))
    · next st => exact taken (StarterLawful.takeOut h u _ (st ▸ .idle))
    · exact taken h
    · exact h
  · unfold State.serveServiceIn
    split
    · next st => exact answer_ite h (taken (StarterLawful.aside h u (s.unit u).toOff (st ▸ .out) .off))
    · exact taken h
  · exact h

theorem push {g : GateNo} {l : List Point} (h : StarterLawful s) : StarterLawful (s.push g l) := by
  have told : StarterLawful
      (if (s.queue g).rises ((s.queue g).appended l).level = true then
        (s.setQueue g ((s.queue g).appended l)).notify
          (.profileLevel g ((s.queue g).appended l).level (s.queue g).limit .rising s.clock)
      else s.setQueue g ((s.queue g).appended l)) := ite h h
  exact ite (enterTravel told) told

theorem serveLoadWindow {f : RawWindow} (h : StarterLawful s) : StarterLawful (s.serveLoadWindow f).2 := by
  refine checked h ?_
  split
  · exact taken h
  · exact h

theorem serveDefine {f : RawSequence} (h : StarterLawful s) : StarterLawful (s.serveDefine f).2 := by
  refine checked h (answer_ite h ?_)
  split
  · exact taken h
  · exact h

theorem serveStart (h : StarterLawful s) : StarterLawful s.serveStart.2 := by
  unfold State.serveStart
  split
  · exact h
  · next d _ =>
    have started : StarterLawful (s.startSequence d) :=
      attempt (s := s.setRunner { Runner.idle.toPosting d.firstStep 1 with pointer := some d.windowFirst }) h
    exact answer_ite (taken started) h

theorem serveStop (h : StarterLawful s) : StarterLawful s.serveStop.2 := by
  unfold State.serveStop
  split
  · exact h
  · exact taken (stopRunner h)

/-- Every request of a known kind (R208). -/
theorem serve {r : Request} (h : StarterLawful s) : StarterLawful (s.serve r).2 := by
  cases r with
  | status | setClock | listSlots | readTide => exact h
  | setNotices | writeCells => exact checked h h
  | configureArbiter | readGate | readQueue | readCells => exact named h fun _ => h
  | reset => exact taken h
  | run => exact serveRun h
  | hold => exact serveHold h
  | stopAll => exact serveStopAll h
  | configureGate =>
    exact answer_ite (named h fun _ => answer_ite (taken h) (answer_ite h (taken h)))
      (checked h (named h fun _ => checked h (taken h)))
  | configureUnit => exact serveUnit h
  | setStepDwell => exact named h fun _ => checked h (taken h)
  | configureTide | configureEnvelope => exact checked h (taken h)
  | configureThreshold => exact checked h (named h fun _ => taken h)
  | configureQueue => exact checked h (named h fun _ => answer_ite h (answer_ite h (taken h)))
  | postOrder => exact servePostOrder h
  | withdrawOrder => exact serveWithdraw h
  | readSlot =>
    exact named h fun k => finish (s := ((s.releaseOther k).takeLock k).modSlot k Slot.markRead)
      (takeLock (releaseOther h))
  | unlock => exact named h fun _ => answer_ite (taken (releaseLock h)) (taken h)
  | stopGate => exact serveStopGate h
  | clearTrip => exact serveClearTrip h
  | setUnitService => exact serveService h
  | pushPoints =>
    exact checked h (named h fun _ => answer_ite h (answer_ite h (checked h (finish (push h)))))
  | peekPoints => exact checked h (named h fun _ => answer_ite h h)
  | flushPoints => exact named h fun _ => answer_ite h (answer_ite h (taken h))
  | setLoadWindow => exact serveLoadWindow h
  | defineSequence => exact serveDefine h
  | startSequence => exact serveStart h
  | stopSequence => exact serveStop h

/-! ### The link port -/

theorem reply {idle : Bool} {r : Reply} (h : StarterLawful s) : StarterLawful (s.reply idle r) := by
  unfold State.reply
  split
  · exact h
  · exact h

theorem modeRefusal {r : Request} {st : Status} (h : StarterLawful s) : StarterLawful (s.modeRefusal r st).2 := by
  unfold State.modeRefusal
  split
  · exact h
  · exact h
  · exact h
  · exact h

theorem takeRequest {n : Byte} {r : Request} (h : StarterLawful s) : StarterLawful (s.takeRequest n r) := by
  refine ite h ?_
  unfold State.takeKnown
  simp only
  split
  · exact reply (modeRefusal h)
  · exact ite (warmReset h) (reply (serve h))

theorem takeFrame {kind n : Byte} {body : List Byte} (h : StarterLawful s) :
    StarterLawful (s.takeFrame kind n body) := by
  have refused : ∀ st, StarterLawful (s.refuseFrame n kind st) := fun st => ite h h
  unfold State.takeFrame
  split
  · exact refused _
  · exact ite (takeRequest h) (refused _)

/-- A byte from the host, with the request that it may complete (R197, R199). -/
theorem receive {b : Byte} {stopHigh : Bool} (h : StarterLawful s) : StarterLawful (s.receive b stopHigh) := by
  have complete : ∀ l, StarterLawful (s.completeFrame l) := fun l =>
    ite (takeFrame (s := s.setLink s.link.waiting) h) h
  unfold State.receive
  split
  · split
    · exact h
    · exact h
  · split
    · exact ite h h
    · exact ite h (ite (complete _) h)

theorem gapExpired (h : StarterLawful s) : StarterLawful s.gapExpired := by
  unfold State.gapExpired
  split
  · exact h
  · exact h

theorem frameFinished (h : StarterLawful s) : StarterLawful s.frameFinished := by
  unfold State.frameFinished
  split
  · exact h
  · exact h

/-! ### The reset line -/

/-- While the reset line is held the units stay in their states (R185). -/
theorem assertReset (h : StarterLawful s) : StarterLawful s.assertReset := by
  have states : s.assertReset.unitStates = s.unitStates := by
    funext u
    have unit : s.assertReset.unit u = (s.unit u).held := Vector.getElem_ofFn u.isLt
    simp [State.unitStates, unit, PowerUnit.held]
  refine (starterLawful_iff _).2 ?_
  rw [states]
  exact h

/-- After cold reset every unit is OFF and none is queued (R109). -/
theorem coldReset (s : State) (strap : LinkRate) : StarterLawful (s.coldReset strap) := by
  have off : ∀ u, (s.coldReset strap).unitStates u = .off := fun u =>
    congrArg PowerUnit.state (Vector.getElem_replicate u.isLt)
  have vacant : Vacant (s.coldReset strap).unitStates [] :=
    ⟨fun u => by simp [off], List.nodup_nil, fun u => by simp [off]⟩
  exact vacant.ordered

/-! ### The step -/

theorem simple {f : State → State} {t : State} (h : StarterLawful s) (hf : StarterLawful (f s))
    (e : simple s f = .next t) : StarterLawful t := by
  cases e
  exact ite h hf

theorem event {f : State → State} {t : State} (h : StarterLawful s) (hf : StarterLawful (f s))
    (e : event s f = .next t) : StarterLawful t := by
  cases e
  exact ite h (finish hf)

theorem request {n : Byte} {r : Request} {t : State} (h : StarterLawful s) (e : request s n r = .next t) :
    StarterLawful t := by
  cases e
  exact ite h (takeRequest h)

/-- A change of the ready input of a unit (R98). -/
theorem readyEvent {u : UnitNo} {ready : Bool} (h : StarterLawful s) : StarterLawful (s.readyEvent u ready) := by
  refine ite h (ite h ?_)
  split
  · next c => exact finish (StarterLawful.unitReady (by exact h) u c.2)
  · exact h

/-- A change of the lined-up input of a unit (R100). -/
theorem linedEvent {u : UnitNo} {lined : Bool} (h : StarterLawful s) : StarterLawful (s.linedEvent u lined) := by
  refine ite h (ite h (ite (finish ?_) h))
  unfold State.lineUpDone
  split
  · next st _ _ => exact linedUp st h
  · exact h

theorem startExpired {u : UnitNo} (h : StarterLawful s) : StarterLawful (s.startExpired u) := by
  unfold State.startExpired
  split
  · next c => exact StarterLawful.startFailed h u c.1
  · exact h

theorem lineUpExpired {u : UnitNo} (h : StarterLawful s) : StarterLawful (s.lineUpExpired u) := by
  unfold State.lineUpExpired
  split
  · next c => exact StarterLawful.lineUpFailed h u c.1
  · exact h

theorem idleExpired {u : UnitNo} (h : StarterLawful s) : StarterLawful (s.idleExpired u) := by
  unfold State.idleExpired
  split
  · next c => exact StarterLawful.idleStopped h u c.1
  · exact h

/-- Every command. -/
theorem exec {i : Instr} {t : State} (h : StarterLawful s) (e : exec i s = .next t) : StarterLawful t := by
  cases i with
  | resetLineAsserted =>
    cases e
    exact assertReset h
  | coldReset strap =>
    cases e
    exact coldReset s strap
  | weirClockTick => exact simple (f := fun s => { s with clock := s.clock + 1 }) h h e
  | receivedByte b stopHigh => exact simple (f := fun s => s.receive b stopHigh) h (receive h) e
  | gapTimerExpiry => exact simple h (gapExpired h) e
  | frameFinished => exact simple h (frameFinished h) e
  | status | setClock | run | hold | stopAll | reset | setNotices | configureGatePresent | configureGateAbsent
  | configureUnit | configureArbiter | configureTide | configureThreshold | configureEnvelope | configureQueue
  | postOrder | withdrawOrder | readSlot | unlock | listSlots | readGate | stopGate | clearTrip | setUnitServiceOut
  | setUnitServiceIn | readTide | pushPoints | peekPoints | flushPoints | readQueue | setLoadWindow | writeCells
  | setStepDwell | readCells | defineSequence | startSequence | stopSequence => exact request h e
  | encoderSample g ch c p t => exact event (f := fun s => s.encoderSample g ch c p t) h (encoderSample h) e
  | encoderSilenceExpiry g x => exact event (f := fun s => s.encoderSilence g x) h (encoderSilence h) e
  | lockPinFeedback =>
    cases e
    exact ite h (ite h (finish (pinChanged h)))
  | releaseTimerExpiry g => exact event (f := fun s => s.releaseExpired g) h (ite (tripGate h) h) e
  | buildTimerExpiry g => exact event (f := fun s => s.buildExpired g) h (ite (tripGate h) h) e
  | stallTimerExpiry g x => exact event (f := fun s => s.stallExpired g x) h (ite (tripGate h) h) e
  | settleTimerExpiry g => exact event (f := fun s => s.settleExpired g) h (ite (enterLocking h) h) e
  | lockTimerExpiry g => exact event (f := fun s => s.lockExpired g) h (ite (tripGate h) h) e
  | tripLockTimerExpiry g => exact event (f := fun s => s.tripLockExpired g) h (ite h h) e
  | holdTimerExpiry g => exact event (f := fun s => s.holdExpired g) h (ite (enterLocking h) h) e
  | readyChange =>
    cases e
    exact readyEvent h
  | faultAssertion =>
    cases e
    exact ite h (ite h (finish (faultAsserted h)))
  | faultClearing =>
    cases e
    exact h
  | linedUpChange =>
    cases e
    exact linedEvent h
  | startTimerExpiry u => exact event (f := fun s => s.startExpired u) h (startExpired h) e
  | lineUpTimerExpiry u => exact event (f := fun s => s.lineUpExpired u) h (lineUpExpired h) e
  | idleTimerExpiry u => exact event (f := fun s => s.idleExpired u) h (idleExpired h) e
  | gaugeSample g x => exact event (f := fun s => s.gaugeSample g x) h (afterTide h) e
  | gaugeSilenceExpiry g => exact event (f := fun s => s.gaugeSilence g) h (gaugeSilence h) e
  | postingAttempt => exact event h (dueAttempt h) e
  | runnerCollection k => exact event (f := fun s => s.collect k) h (collect h) e
  | dwellTimerExpiry => exact event h (dwellEvent h) e

/-- Every step (log 1). -/
theorem step {t : State} (h : StarterLawful s) (e : step s = .next t) : StarterLawful t := by
  unfold Machine.step at e
  split at e
  · cases e
    exact h
  · next rest _ => exact exec (s := { s with pending := rest }) h e

end Sys2Proof.Safety.StarterLawful

namespace Sys2Proof.Machine

open Sys2Proof.Safety

/-- The outputs of a unit after cold reset are those of OFF (R109). -/
theorem State.unitsLawful_coldReset (s : State) (strap : LinkRate) : UnitsLawful (s.coldReset strap) := by
  intro _ u
  have cold : (s.coldReset strap).unit u = PowerUnit.cold := Vector.getElem_replicate u.isLt
  rw [cold]
  rfl

/-- The outputs of the units follow every write; while the reset line is held nothing is said of them (R93, R185). -/
theorem Written.unitsLawful {s t : State} (w : Written s t) (ok : UnitsLawful s) : UnitsLawful t := by
  induction w with
  | trans _ _ first second => exact second (first ok)
  | kept h => exact h.units ok
  | takeLock s k =>
    unfold State.takeLock
    simp only
    split
    · exact ok
    · exact ok
  | lineAsserted s => exact fun released => absurd released (by simp [State.assertReset])
  | coldReset s strap => exact s.unitsLawful_coldReset strap
  | _ => exact ok

end Sys2Proof.Machine

namespace Sys2Proof.Proofs

open Sys2Proof.Machine Sys2Proof.Safety

/-- Settles O55: the law of the starter is led through every operation of a command, the outputs of the units through the
writes that a command is made of. -/
theorem stepKeepsUnitsLawful : Obligations.StepKeepsUnitsLawful := by
  unfold Obligations.StepKeepsUnitsLawful
  exact ⟨fun _ _ ok h => ok.step h, fun _ _ ok h => (Written.step h).unitsLawful ok⟩

end Sys2Proof.Proofs
end

section
/-! What the events of a power unit leave (chapter 5), in the terms of Safety.lean: the starter passed on, a unit taken
out of service, a grant returned; and the events that are made of these. -/

namespace Sys2Proof.Machine

open Sys2Proof.Safety

section

variable {s : State} {u v : UnitNo} {k : SlotNo} {g : GateNo}

theorem State.unitInput_setUnitInput_ne (s : State) (i : UnitInputs) (h : u ≠ v) :
    (s.setUnitInput u i).unitInput v = s.unitInput v := by
  have ne : u.val ≠ v.val := fun e => h (Fin.ext e)
  simp [State.unitInput, State.setUnitInput, Vector.get_eq_getElem, Vector.getElem_set_ne, ne]

/-! ### The starter and the returned grant (R56, R95, R97) -/

theorem State.takeOut_eq_goesOut (s : State) (u : UnitNo) (c : OutCause) : s.takeOut u c = goesOut s u c := rfl

theorem State.returnReserved_eq (s : State) (k : Option SlotNo) : s.returnReserved k = reservationReturned s k := by
  cases k with
  | none => rfl
  | some k => rfl

/-- With nobody queued the starter becomes free (R95). -/
theorem State.passStarter_nil (queue : s.startQueue = []) : State.passStarter [] s = s :=
  congrArg (fun q => ({ s with startQueue := q } : State)) queue.symm

/-- The head of the queue enters STARTING (R95). -/
theorem State.passStarter_cons (rest : List UnitNo) (clear : (s.unitInput v).fault = false) :
    State.passStarter (v :: rest) s = startsNext s v rest := by
  rw [State.passStarter, clear]
  rfl

/-- A faulty head that is alone in the queue goes OUT_OF_SERVICE and its slot is returned (R97). -/
theorem State.passStarter_singleton_of_fault (fault : (s.unitInput v).fault = true) :
    State.passStarter [v] s = reservationReturned { goesOut s v .fault with startQueue := [] } (s.unit v).slot := by
  rw [State.passStarter, if_pos fault, State.passStarter, State.returnReserved_eq]
  rfl

theorem reservationReturned_of_granted (granted : (s.slot k).state = .granted) :
    reservationReturned s (some k) = grantReturned s k := if_pos granted

/-- Outside RUN the round of a returned grant grants nothing (R56, R79). -/
theorem finish_grantReturned_of_not_run (mode : s.mode ≠ .run) (m : MarksClear s) :
    (grantReturned s k).finish = s.setSlot k { s.slot k with state := .pending, unit := none, grantTime := none } :=
  State.finish_openRound_of_not_run (s := s.setSlot k _) mode m

/-- A unit whose reserved slot is GRANTED has gone OUT_OF_SERVICE: outside RUN the slot ends PENDING again (R56). -/
theorem finish_reservationReturned_goesOut (s : State) (u : UnitNo) (c : OutCause) (slot : (s.unit u).slot = some k)
    (granted : (s.slot k).state = .granted) (mode : s.mode ≠ .run) (m : MarksClear s) :
    (reservationReturned (goesOut s u c) (s.unit u).slot).finish =
      (goesOut s u c).setSlot k { s.slot k with state := .pending, unit := none, grantTime := none } := by
  rw [slot, reservationReturned_of_granted (by exact granted)]
  exact finish_grantReturned_of_not_run (s := goesOut s u c) mode m

/-! ### Ready feedback (R98) -/

/-- State `s` with the ready input of unit `u` at READY (R94). -/
abbrev State.withReady (s : State) (u : UnitNo) : State := s.setUnitInput u { s.unitInput u with ready := true }

/-- Unit `u` is STARTING and takes a change of its ready input to READY (R98). -/
structure TurnsReady (s : State) (u : UnitNo) : Prop where
  released : s.resetHeld = false
  change : (s.unitInput u).ready = false
  starting : (s.unit u).state = .starting

theorem TurnsReady.exec (h : TurnsReady s u) :
    exec (.readyChange u true) s = .next ((s.withReady u).unitReady u).finish := by
  have event : s.readyEvent u true = ((s.withReady u).unitReady u).finish := by
    unfold State.readyEvent
    simp [h.change, h.released, h.starting]
  exact congrArg _ event

/-- A unit with a reservation lines up to its gate, and the starter passes on (R98). -/
theorem TurnsReady.exec_of_reserved (h : TurnsReady s u) (slot : (s.unit u).slot = some k)
    (gate : (s.unit u).gate = some g) :
    Machine.exec (.readyChange u true) s = .next (State.passStarter s.startQueue
      ((s.withReady u).setUnit u ((s.unit u).toLiningUp k g))).finish := by
  rw [h.exec, State.unitReady]
  simp only [State.unit_setUnitInput, slot, gate]
  rfl

/-- A unit without a reservation is IDLE, a round opens, and the starter passes on (R98). -/
theorem TurnsReady.exec_of_unreserved (h : TurnsReady s u) (slot : (s.unit u).slot = none) :
    Machine.exec (.readyChange u true) s = .next (State.passStarter s.startQueue
      ((s.withReady u).setUnit u (s.unit u).toIdle).openRound).finish := by
  rw [h.exec, State.unitReady]
  simp only [State.unit_setUnitInput, slot]
  rfl

/-- Ready feedback of a unit in another state is only recorded (R94). -/
theorem State.readyEvent_recorded (change : (s.unitInput u).ready = false) (st : (s.unit u).state ≠ .starting) :
    s.readyEvent u true = s.withReady u := by
  unfold State.readyEvent
  simp [change, st]

/-! ### Timers (R99, R101, R103) -/

/-- An event of a block, the reset line being released, is taken to its end (R78, R185). -/
theorem event_of_released (f : State → State) (released : s.resetHeld = false) : event s f = .next (f s).finish := by
  unfold event
  rw [released]
  rfl

/-- A timer that does not run does not expire (log 2). -/
theorem PowerUnit.runs_of_stopped {r : PowerUnit} (stopped : r.timer = none) (t : UnitTimer) : r.runs t = false := by
  unfold PowerUnit.runs
  rw [stopped]

/-- The start timer takes the unit OUT_OF_SERVICE, the starter passes on, the grant is returned (R99). -/
theorem exec_startTimerExpiry (released : s.resetHeld = false) (starting : (s.unit u).state = .starting)
    (runs : (s.unit u).runs .start = true) :
    exec (.startTimerExpiry u) s = .next (reservationReturned
      (State.passStarter s.startQueue (goesOut s u .startFailed)) (s.unit u).slot).finish := by
  have failed : s.startExpired u = reservationReturned
      (State.passStarter s.startQueue (goesOut s u .startFailed)) (s.unit u).slot :=
    (if_pos ⟨starting, runs⟩).trans (State.returnReserved_eq _ _)
  exact (event_of_released (fun s => s.startExpired u) released).trans (by rw [failed])

/-- With nobody queued the starter becomes free (R95, R99). -/
theorem exec_startTimerExpiry_of_empty (released : s.resetHeld = false) (starting : (s.unit u).state = .starting)
    (runs : (s.unit u).runs .start = true) (queue : s.startQueue = []) :
    exec (.startTimerExpiry u) s =
      .next (reservationReturned (goesOut s u .startFailed) (s.unit u).slot).finish := by
  rw [exec_startTimerExpiry released starting runs, queue, State.passStarter_nil (by exact queue)]

/-- The line-up timer takes the unit OUT_OF_SERVICE, and the grant is returned (R101). -/
theorem exec_lineUpTimerExpiry (released : s.resetHeld = false) (liningUp : (s.unit u).state = .liningUp)
    (runs : (s.unit u).runs .lineUp = true) :
    exec (.lineUpTimerExpiry u) s = .next (reservationReturned (goesOut s u .lineUp) (s.unit u).slot).finish := by
  have failed : s.lineUpExpired u = reservationReturned (goesOut s u .lineUp) (s.unit u).slot :=
    (if_pos ⟨liningUp, runs⟩).trans (State.returnReserved_eq _ _)
  exact (event_of_released (fun s => s.lineUpExpired u) released).trans (by rw [failed])

/-- The idle timer stops the pump, and no round opens (R103). -/
theorem exec_idleTimerExpiry (released : s.resetHeld = false) (m : MarksClear s) (idle : (s.unit u).state = .idle)
    (runs : (s.unit u).runs .idle = true) : exec (.idleTimerExpiry u) s = .next (s.setUnit u (s.unit u).toOff) := by
  have stopped : s.idleExpired u = s.setUnit u (s.unit u).toOff := if_pos ⟨idle, runs⟩
  refine (event_of_released (fun s => s.idleExpired u) released).trans ?_
  rw [stopped, State.finish_of_marksClear (by exact m)]

/-- An expiry that its rule does not name changes nothing (log 2). -/
theorem event_of_same {f : State → State} (released : s.resetHeld = false) (m : MarksClear s) (same : f s = s) :
    event s f = .next s := by
  rw [event_of_released f released, same, State.finish_of_marksClear m]

/-! ### The fault input (R94, R104) -/

/-- State `s` with the fault input of unit `u` ASSERTED (R94). -/
abbrev State.withFault (s : State) (u : UnitNo) : State := s.setUnitInput u { s.unitInput u with fault := true }

theorem State.fault_withFault (s : State) (u : UnitNo) : ((s.withFault u).unitInput u).fault = true := by
  simp [State.unitInput, State.setUnitInput, Vector.get_eq_getElem]

/-- An assertion is taken in the state the unit is in (R94, R104). -/
theorem State.faultEvent_of_change (released : s.resetHeld = false) (change : (s.unitInput u).fault = false) :
    s.faultEvent u = ((s.withFault u).faultAsserted u).finish := by
  unfold State.faultEvent
  simp [change, released]

/-- An input that is ASSERTED already does not change (log 20). -/
theorem State.faultEvent_of_asserted (fault : (s.unitInput u).fault = true) : s.faultEvent u = s := if_pos fault

/-- A fault changes nothing at a unit that is OFF or OUT_OF_SERVICE (R104; log 30). -/
theorem State.faultAsserted_of_resting (st : (s.unit u).state = .off ∨ (s.unit u).state = .outOfService) :
    s.faultAsserted u = s := by
  obtain st | st := st
  · simp only [State.faultAsserted, State.unitFault, st]
  · simp only [State.faultAsserted, State.unitFault, st]

theorem State.faultAsserted_of_idle (st : (s.unit u).state = .idle) : s.faultAsserted u = goesOut s u .fault := by
  simp only [State.faultAsserted, State.unitFault, st, State.takeOut_eq_goesOut]

/-- A LINING_UP unit returns its grant (R56, R104). -/
theorem State.faultAsserted_of_liningUp (st : (s.unit u).state = .liningUp) :
    s.faultAsserted u = reservationReturned (goesOut s u .fault) (s.unit u).slot := by
  simp only [State.faultAsserted, State.unitFault, st, State.takeOut_eq_goesOut, State.returnReserved_eq]

/-- From STARTING the starter passes on, and the grant is returned (R95, R104). -/
theorem State.faultAsserted_of_starting (st : (s.unit u).state = .starting) :
    s.faultAsserted u = reservationReturned
      (State.passStarter s.startQueue (goesOut s u .fault)) (s.unit u).slot := by
  simp only [State.faultAsserted, State.unitFault, st, State.takeOut_eq_goesOut, State.returnReserved_eq]
  rfl

/-- A START_QUEUED unit leaves the start queue and returns its grant (R95, R104). -/
theorem State.faultAsserted_of_startQueued (st : (s.unit u).state = .startQueued) :
    s.faultAsserted u = reservationReturned
      { goesOut s u .fault with startQueue := s.startQueue.filter fun w => w != u } (s.unit u).slot := by
  simp only [State.faultAsserted, State.unitFault, st, State.takeOut_eq_goesOut, State.returnReserved_eq]
  rfl

/-- The moving gate of an ASSIGNED unit trips with POWER_LOST once the unit is OUT_OF_SERVICE (R36, R104). -/
theorem State.faultAsserted_of_assigned (st : (s.unit u).state = .assigned) (gate : (s.unit u).gate = some g)
    (moving : (s.gate g).state.moving = true) :
    s.faultAsserted u = (goesOut s u .fault).tripGate g .powerLost 0 .both := by
  have moving' : ((goesOut s u .fault).gate g).state.moving = true := moving
  simp only [State.faultAsserted, st, State.assignedFault, gate, State.takeOut_eq_goesOut, State.losePower, moving',
    if_true]

/-! ### SET_UNIT_SERVICE (R105 to R107) -/

theorem State.serve_setUnitService_out (s : State) (u : UnitNo) :
    s.serve (.setUnitService u.val 0) = s.serveServiceOut u := by
  rw [State.serve, State.serveService, unitOf_val, State.named_some]
  rfl

theorem State.serve_setUnitService_in (s : State) (u : UnitNo) :
    s.serve (.setUnitService u.val 1) = s.serveServiceIn u := by
  rw [State.serve, State.serveService, unitOf_val, State.named_some]
  rfl

/-- An OFF or IDLE unit goes OUT_OF_SERVICE for maintenance (R106). -/
theorem State.serveServiceOut_of_resting (m : MarksClear s)
    (st : (s.unit u).state = .off ∨ (s.unit u).state = .idle) :
    s.serveServiceOut u = (.ok [], goesOut s u .maintenance) := by
  have out : (s.takeOut u .maintenance).taken = (.ok [], goesOut s u .maintenance) :=
    State.taken_of_marksClear (s := goesOut s u .maintenance) m
  obtain st | st := st
  · simp only [State.serveServiceOut, st, out]
  · simp only [State.serveServiceOut, st, out]

theorem State.serveServiceOut_of_out (m : MarksClear s) (st : (s.unit u).state = .outOfService) :
    s.serveServiceOut u = (.ok [], s) := by
  simp only [State.serveServiceOut, st, State.taken_of_marksClear m]

theorem State.serveServiceOut_of_busy (st : (s.unit u).state = .startQueued ∨ (s.unit u).state = .starting ∨
    (s.unit u).state = .liningUp ∨ (s.unit u).state = .assigned) :
    s.serveServiceOut u = s.refuse .unitBusy := by
  obtain st | st | st | st := st
  · simp only [State.serveServiceOut, st]
  · simp only [State.serveServiceOut, st]
  · simp only [State.serveServiceOut, st]
  · simp only [State.serveServiceOut, st]

theorem State.serveServiceIn_of_in_service (m : MarksClear s) (st : (s.unit u).state ≠ .outOfService) :
    s.serveServiceIn u = (.ok [], s) := by
  unfold State.serveServiceIn
  split
  · next out => exact absurd out st
  · exact State.taken_of_marksClear m

theorem State.serveServiceIn_of_fault (st : (s.unit u).state = .outOfService) (fault : (s.unitInput u).fault = true) :
    s.serveServiceIn u = s.refuse .faultPresent := by
  simp only [State.serveServiceIn, st, fault, if_true]

/-- A unit returns to OFF with its notice; outside RUN the round it opens grants nothing (R105, R107). -/
theorem State.serveServiceIn_of_clear {c : OutCause} (m : MarksClear s) (mode : s.mode ≠ .run)
    (st : (s.unit u).state = .outOfService) (clear : (s.unitInput u).fault = false)
    (cause : (s.unit u).cause = some c) :
    s.serveServiceIn u =
      (.ok [], (s.setUnit u (s.unit u).toOff).notify (.unitState u .into c s.clock)) := by
  have returned : s.returnUnit u =
      ((s.setUnit u (s.unit u).toOff).notify (.unitState u .into c s.clock)).openRound := by
    unfold State.returnUnit
    rw [cause]
    rfl
  simp only [State.serveServiceIn, st, clear, Bool.false_eq_true, if_false, returned]
  exact State.taken_of_finish (State.finish_openRound_of_not_run (by exact mode) (by exact m))

end

end Sys2Proof.Machine

namespace Sys2Proof.Proofs

open Sys2Proof.Machine Sys2Proof.Safety

/-- Settles O38: the unit lines up or is IDLE, and the starter passes on as its queue stands. -/
theorem readyEndsStart : Obligations.ReadyEndsStart := by
  unfold Obligations.ReadyEndsStart
  intro u s released m change s'
  have ready : (s.unit u).state = .starting → TurnsReady s u := TurnsReady.mk released change
  refine ⟨fun st => ?recorded, fun k g st queue slot gate => ?reserved, fun st queue slot mode => ?unreserved,
    fun v rest st queue ne => ?queued⟩
  case recorded => exact congrArg _ (State.readyEvent_recorded change st)
  case reserved =>
    rw [(ready st).exec_of_reserved slot gate, queue, State.passStarter_nil (by exact queue),
      State.finish_of_marksClear (by exact m)]
    rfl
  case unreserved =>
    rw [(ready st).exec_of_unreserved slot, queue, State.passStarter_nil (by exact queue),
      State.finish_openRound_of_not_run (by exact mode) (by exact m)]
    rfl
  case queued =>
    have input : s'.unitInput v = s.unitInput v := s.unitInput_setUnitInput_ne _ ne.symm
    refine ⟨?lining, fun slot clear => ?idle⟩
    case lining =>
      intro k g slot gate lining
      have unit : lining.unit v = s.unit v := s'.unit_setUnit_ne _ ne.symm
      have passed : exec (.readyChange u true) s = .next (State.passStarter s.startQueue lining).finish :=
        (ready st).exec_of_reserved slot gate
      refine ⟨fun clear => ?starts, fun fault alone => ?skipped⟩
      case starts =>
        rw [passed, queue, State.passStarter_cons (s := lining) rest ((congrArg UnitInputs.fault input).trans clear),
          State.finish_of_marksClear (by exact m)]
      case skipped =>
        rw [passed, queue, alone,
          State.passStarter_singleton_of_fault (s := lining) ((congrArg UnitInputs.fault input).trans fault), unit]
    case idle =>
      rw [(ready st).exec_of_unreserved slot, queue, State.passStarter_cons (s := (s'.setUnit u _).openRound) rest
        ((congrArg UnitInputs.fault input).trans clear)]
      rfl

/-- Settles O40: the start and line-up timers by what they leave in every mode, and the idle timer. -/
theorem unitTimersExpire : Obligations.UnitTimersExpire := by
  unfold Obligations.UnitTimersExpire
  refine ⟨fun u s released m queue => ?alone, fun u s released m => ⟨fun v rest st runs queue ne clear => ?next,
    exec_startTimerExpiry_of_empty released, exec_lineUpTimerExpiry released⟩⟩
  case alone =>
    intro out
    refine ⟨fun st runs slot => ?unreserved, fun k slot granted mode => ?returned,
      exec_idleTimerExpiry released m, fun stopped => ?stopped⟩
    case unreserved =>
      rw [exec_startTimerExpiry_of_empty released st runs queue, slot]
      exact congrArg _ (State.finish_of_marksClear (s := goesOut s u .startFailed) m)
    case returned =>
      have back := fun c => finish_reservationReturned_goesOut s u c slot granted mode m
      exact ⟨fun st runs => (exec_startTimerExpiry_of_empty released st runs queue).trans (congrArg _ (back _)),
        fun st runs => (exec_lineUpTimerExpiry released st runs).trans (congrArg _ (back _))⟩
    case stopped =>
      have no := PowerUnit.runs_of_stopped stopped
      exact ⟨event_of_same released m (if_neg (by simp [no])), event_of_same released m (if_neg (by simp [no])),
        event_of_same released m (if_neg (by simp [no]))⟩
  case next =>
    rw [exec_startTimerExpiry released st runs, queue, State.passStarter_cons rest (by exact clear)]

/-- Settles O41: by the state in which the unit takes the assertion. -/
theorem unitFaultActs : Obligations.UnitFaultActs := by
  unfold Obligations.UnitFaultActs
  refine ⟨fun _ _ => rfl, fun u s released m change => ?_⟩
  intro s' out
  have acts : ∀ {t : State}, s'.faultAsserted u = t → exec (.faultAssertion u) s = .next t.finish := fun e =>
    congrArg _ ((State.faultEvent_of_change released change).trans (congrArg State.finish e))
  have settles : ∀ {t : State}, s'.faultAsserted u = t → MarksClear t → exec (.faultAssertion u) s = .next t :=
    fun e clear => (acts e).trans (congrArg _ (State.finish_of_marksClear clear))
  have starting := State.faultAsserted_of_starting (s := s') (u := u)
  have startingAlone : (s.unit u).state = .starting → s.startQueue = [] →
      exec (.faultAssertion u) s = .next (reservationReturned out (s.unit u).slot).finish := by
    intro st queue
    rw [acts (starting st), State.startQueue_setUnitInput, queue, State.passStarter_nil (by exact queue)]
    rfl
  have liningUp : (s.unit u).state = .liningUp →
      exec (.faultAssertion u) s = .next (reservationReturned out (s.unit u).slot).finish := fun st =>
    acts (State.faultAsserted_of_liningUp (s := s') st)
  refine ⟨fun st => settles (State.faultAsserted_of_resting (s := s') st) m,
    fun st => settles (State.faultAsserted_of_idle (s := s') st) m, fun k st slot granted mode => ?returned,
    fun g st gate moving => acts (State.faultAsserted_of_assigned (s := s') st gate moving), ?again,
    fun st => acts (State.faultAsserted_of_startQueued (s := s') st), startingAlone,
    fun v rest st queue ne clear => ?next, liningUp⟩
  case returned =>
    rw [st.elim liningUp fun alone => startingAlone alone.1 alone.2]
    exact congrArg _ (finish_reservationReturned_goesOut s' u .fault slot granted mode m)
  case again => exact congrArg _ (State.faultEvent_of_asserted (s.fault_withFault u))
  case next =>
    have input : (s'.unitInput v).fault = false :=
      (congrArg UnitInputs.fault (s.unitInput_setUnitInput_ne _ ne.symm)).trans clear
    rw [acts (starting st), State.startQueue_setUnitInput, queue,
      State.passStarter_cons (s := goesOut s' u .fault) rest input]
    rfl

/-- Settles O42: by the state of the unit, for OUT and for IN. -/
theorem unitServiceChanges : Obligations.UnitServiceChanges := by
  unfold Obligations.UnitServiceChanges
  intro n u s l m mode refused
  have test : ∀ v, s.modeTest (.setUnitService u.val v) = none := fun v =>
    State.modeTest_of_anyMode mode rfl (by simp)
  have out := s.serve_setUnitService_out u
  have into := s.serve_setUnitService_in u
  refine ⟨fun st => ?taken, fun st => ?busy, fun st => ?stays, fun st => ?inService, fun st fault => ?faulty,
    fun c st clear cause run => ?returned⟩
  case taken =>
    exact request_answered l (test 0) (by simp) (out.trans (State.serveServiceOut_of_resting m st))
  case busy => exact request_served l (test 0) (by simp) (out.trans (State.serveServiceOut_of_busy st)) rfl
  case stays => exact request_served l (test 0) (by simp) (out.trans (State.serveServiceOut_of_out m st)) rfl
  case inService => exact request_served l (test 1) (by simp) (into.trans (State.serveServiceIn_of_in_service m st)) rfl
  case faulty => exact request_served l (test 1) (by simp) (into.trans (State.serveServiceIn_of_fault st fault)) rfl
  case returned =>
    exact request_answered l (test 1) (by simp) (into.trans (State.serveServiceIn_of_clear m run st clear cause))

end Sys2Proof.Proofs
end

section
/-! The sea-side history and the drain flavour through every command (R123, R184): both follow the writes of `Written`. -/

namespace Sys2Proof.Machine

open Sys2Proof.Safety

/-- An arrival at the monitor leaves at most 61 entries (R123). -/
theorem Tide.length_history_serve (t : Tide) (g : Gauge) (r : GaugeRec) (now : Clock) (b : t.history.length ≤ 61) :
    (t.serve g r now).1.history.length ≤ 61 := by
  obtain same | emptied | ⟨x, appended⟩ := t.history_serve g r now
  · rw [same]
    exact b
  · simp [emptied]
  · rw [appended]
    exact length_appendLevel t.history x b

/-- Taking the lock writes the lock and its slot alone (R64). -/
theorem State.tide_takeLock (s : State) (k : SlotNo) : (s.takeLock k).tide = s.tide := by
  unfold State.takeLock
  exact (apply_ite State.tide _ _ _).trans (ite_self _)

theorem State.flavourLawful_takeLock {s : State} (k : SlotNo) (ok : FlavourLawful s) : FlavourLawful (s.takeLock k) := by
  unfold State.takeLock
  simp only
  split
  · exact ok
  · exact ok

theorem Written.historyBounded {s t : State} (w : Written s t) (ok : HistoryBounded s) : HistoryBounded t := by
  induction w with
  | trans _ _ first second => exact second (first ok)
  | kept h =>
    unfold HistoryBounded
    rw [h.tide]
    exact ok
  | takeLock s k =>
    unfold HistoryBounded
    rw [s.tide_takeLock]
    exact ok
  | tideSampled s g x => exact s.tide.length_history_serve g _ s.clock ok
  | tideSilent s g => exact s.tide.length_history_serve g _ s.clock ok
  | coldReset s strap => exact Nat.zero_le 61
  | _ => exact ok

theorem Written.flavourLawful {s t : State} (w : Written s t) (ok : FlavourLawful s) : FlavourLawful t := by
  induction w with
  | trans _ _ first second => exact second (first ok)
  | kept h => exact h.flavour ok
  | takeLock s k => exact State.flavourLawful_takeLock k ok
  | coldReset s strap => rfl
  | _ => exact ok

end Sys2Proof.Machine

namespace Sys2Proof.Proofs

open Sys2Proof.Machine Sys2Proof.Safety

/-- Settles O57: every step is a run of writes, each of which keeps both laws. -/
theorem stepKeepsHistoryAndFlavour : Obligations.StepKeepsHistoryAndFlavour := by
  unfold Obligations.StepKeepsHistoryAndFlavour
  exact ⟨fun _ _ ok h => (Written.step h).historyBounded ok, fun _ _ ok h => (Written.step h).flavourLawful ok⟩

end Sys2Proof.Proofs
end

section
/-! The requests that configure the tide monitor and the envelope unit (R119, R127, R141). -/

namespace Sys2Proof.Machine

open Sys2Proof.Safety

@[simp] theorem thrOf_val (i : ThrNo) : thrOf i.val = some i := dif_pos i.isLt

variable {s : State}

/-- CONFIGURE_TIDE with its fields in range (R127). -/
theorem State.serveTide_of_pass (m : MarksClear s) {f : RawTide} (pass : firstBad (tideChecks f) = none) :
    s.serveTide f = (.ok [], s.setTide (s.tide.configured f)) := by
  rw [State.serveTide, State.checked_pass s _ pass]
  exact State.taken_of_marksClear (s := s.setTide _) m

/-- CONFIGURE_THRESHOLD with its fields in range (R119). -/
theorem State.serveThreshold_of_pass (m : MarksClear s) {i : ThrNo} {f : RawThreshold} {sig : Signal}
    (index : f.index = i.val) (signal : signalOf f.signal = some sig) (pass : firstBad (thresholdChecks f) = none) :
    s.serveThreshold f = (.ok [], s.setTide (s.tide.setThreshold i
      { signal := sig, level := f.level, hysteresis := f.hysteresis, enabled := f.enabled == 1, state := .unknown })) := by
  rw [State.serveThreshold, State.checked_pass s _ pass, index, thrOf_val, State.named_some, signal]
  exact State.taken_of_marksClear (s := s.setTide _) m

/-- CONFIGURE_ENVELOPE with its fields in range (R141). -/
theorem State.serveEnvelope_of_pass (m : MarksClear s) {b c : List Int}
    (pass : firstBad (boundaryChecks 1 none b ++ cellChecks s.openingMaxOf 0 c) = none) :
    s.serveEnvelope b c = (.ok [], s.setEnvelope (Envelope.configured s.tide.head b c)) := by
  rw [State.serveEnvelope, State.checked_pass s _ pass]
  exact State.taken_of_marksClear (s := s.setEnvelope _) m

theorem Envelope.boundaries_configured (head : Option Int) (b c : List Int) (i : Fin 7) :
    (Envelope.configured head b c).boundaries.get i = b.getD i.val 0 := by
  simp [Envelope.configured, Vector.get_eq_getElem]

/-- Cell B*b* G*g* is cell 6 b + g of the list, which is field 8 + 6 b + g (R141). -/
theorem Envelope.cell_configured (head : Option Int) (b c : List Int) (i : BandNo) (g : GateNo) :
    (Envelope.configured head b c).cell i g = c.getD (6 * i.val + g.val) 0 := by
  simp [Envelope.configured, Envelope.cell, Vector.get_eq_getElem]

end Sys2Proof.Machine

namespace Sys2Proof.Proofs

open Sys2Proof.Machine Sys2Proof.Safety

/-- Settles O17: each request passes its checks, writes its record and leaves the line alone. -/
theorem configureTideAndEnvelopeWrite : Obligations.ConfigureTideAndEnvelopeWrite := by
  unfold Obligations.ConfigureTideAndEnvelopeWrite
  refine ⟨fun n s l m => ⟨fun f mode pass => ?tide, fun i f sig mode index signal pass => ?threshold⟩,
    fun n b c s l m mode _ _ pass => ⟨Envelope.configured s.tide.head b c, ?envelope,
      Envelope.boundaries_configured _ _ _, Envelope.cell_configured _ _ _, rfl⟩⟩
  case tide =>
    exact request_served (r := .configureTide f) l (State.modeTest_of_config mode _) (by simp)
      (State.serveTide_of_pass m pass) rfl
  case threshold =>
    exact request_served (r := .configureThreshold f) l (State.modeTest_of_anyMode mode rfl (by simp)) (by simp)
      (State.serveThreshold_of_pass m index signal pass) rfl
  case envelope =>
    exact request_served (r := .configureEnvelope b c) l (State.modeTest_of_config mode _) (by simp)
      (State.serveEnvelope_of_pass m pass) rfl

end Sys2Proof.Proofs
end

section
/-! The rules of the tide monitor's values: thresholds, direction, surge and head (R114 to R124). -/

namespace Sys2Proof.Machine

/-! ### Thresholds (R116, R117) -/

section

variable {r : Threshold} {v : Int}

theorem Threshold.evaluate_of_unknown (h : r.state = .unknown) :
    r.evaluate v = ({ r with state := if v < r.level then .below else .above }, none) := by
  simp only [Threshold.evaluate, h, ← not_le, ite_not]

theorem Threshold.evaluate_of_below (h : r.state = .below) :
    r.evaluate v = if r.level ≤ v then ({ r with state := .above }, some .rise) else (r, none) := by
  simp only [Threshold.evaluate, h]

theorem Threshold.evaluate_of_above (h : r.state = .above) :
    r.evaluate v = if v < r.level - r.hysteresis then ({ r with state := .below }, some .fall) else (r, none) := by
  simp only [Threshold.evaluate, h]

theorem Threshold.serves_iff (r : Threshold) (sig : Signal) : r.serves sig = true ↔ r.enabled = true ∧ r.signal = sig := by
  simp [Threshold.serves]

end

theorem mem_allThresholds (i : ThrNo) : i ∈ allThresholds := List.mem_finRange i

theorem allThresholds_nodup : allThresholds.Nodup := List.nodup_finRange 8

/-- A value offered to the whole list: every threshold on its signal is served, and the events come in number order
(R114, R116). -/
theorem Tide.offerTo_all (t : Tide) (sig : Signal) (v : Int) (now : Clock) :
    t.offerTo sig v now allThresholds =
      ({ t with thresholds := Vector.ofFn fun i => (t.thresholds.get i).after sig v },
        allThresholds.filterMap fun i => (t.thresholds.get i).raises sig v now i) := by
  obtain ⟨records, events⟩ := Tide.offerTo_spec sig v now allThresholds allThresholds_nodup t
  obtain ⟨x, others⟩ := Tide.offerTo_others sig v now allThresholds t
  have each : x = Vector.ofFn fun i => (t.thresholds.get i).after sig v := by
    ext i hi
    have record := records ⟨i, hi⟩
    rw [others, if_pos (mem_allThresholds _)] at record
    exact record.trans (by simp)
  exact Prod.ext (others.trans (by rw [each])) events

/-! ### Direction (R120 to R122) -/

section

variable {t : Tide} {head : Int} {now : Clock}

theorem Tide.confirm_of_no_side (h : t.qualifies head = none) :
    t.confirm head now = ({ t with confirmCount := 0, confirmSide := none }, []) := by
  simp only [Tide.confirm, h]

/-- A sample that qualifies on a side counts toward it, and completes the turn or not (R121, R122). -/
theorem Tide.confirm_of_side {side : Side} (h : t.qualifies head = some side) :
    t.confirm head now =
      if t.turnConfirm ≤ (if t.confirmSide = some side then t.confirmCount + 1 else 1) then
        ({ t with confirmCount := 0, confirmSide := none, direction := side.direction },
          [{ kind := side.turn, index := none, gauge := none, value := head, time := now }])
      else ({ t with confirmCount := if t.confirmSide = some side then t.confirmCount + 1 else 1,
                     confirmSide := some side }, []) := by
  simp only [Tide.confirm, h]

end

/-! ### Surge (R123, R124) -/

theorem riseOf_of_not_full {h : List Int} (n : h.length ≠ 61) : riseOf h = none := if_neg n

/-- The rise over a full history that ends with `x` (R124). -/
theorem riseOf_of_full {h : List Int} (n : h.length = 61) {x : Int} (newest : h.getLast? = some x) :
    riseOf h = some (x - h.headD 0) := by
  cases h with
  | nil => cases newest
  | cons a l => simp only [riseOf, n, newest, if_true, List.head?_cons, List.headD_cons]

section

variable {t : Tide} {x : Int} {now : Clock}

theorem Tide.append_of_not_full (n : (appendLevel t.history x).length ≠ 61) :
    t.append x now = ({ t with history := appendLevel t.history x }, []) := by
  simp only [Tide.append, riseOf_of_not_full n]

/-- The surge test over a full history, while no surge is marked (R124). -/
theorem Tide.append_of_calm (n : (appendLevel t.history x).length = 61) (calm : t.surge = false) :
    t.append x now =
      if t.surgeRate < x - (appendLevel t.history x).headD 0 then
        ({ t with history := appendLevel t.history x, surge := true },
          [{ kind := .surge, index := none, gauge := none, value := x - (appendLevel t.history x).headD 0, time := now }])
      else ({ t with history := appendLevel t.history x }, []) := by
  simp only [Tide.append, riseOf_of_full n (getLast_appendLevel t.history x), calm]

/-- The surge test over a full history, while a surge is marked (R124). -/
theorem Tide.append_of_surge (n : (appendLevel t.history x).length = 61) (surge : t.surge = true) :
    t.append x now =
      if x - (appendLevel t.history x).headD 0 < t.surgeRate.tdiv 2 then
        ({ t with history := appendLevel t.history x, surge := false }, [])
      else ({ t with history := appendLevel t.history x }, []) := by
  simp only [Tide.append, riseOf_of_full n (getLast_appendLevel t.history x), surge]

end

/-! ### Head (R115) -/

section

variable {t : Tide} {fresh : Bool} {now : Clock}

theorem Tide.formHead_fresh {u d : Int} (up : t.up.state = .good) (down : t.down.state = .good)
    (upLevel : t.up.level = some u) (downLevel : t.down.level = some d) :
    let a := { t with head := some (u - d) }.offerTo .head (u - d) now allThresholds
    let b := a.1.confirm (u - d) now
    t.formHead true now = (b.1, a.2 ++ b.2, .sample (u - d)) := by
  simp only [Tide.formHead, up, down, upLevel, downLevel, and_self, if_true]

theorem Tide.formHead_stale (up : t.up.state = .good) (down : t.down.state = .good) :
    t.formHead false now = (t, [], .none) := by
  simp only [Tide.formHead, up, down, and_self, if_true]

/-- With a gauge out of GOOD a head that is known is lost, and one that is not stays absent (R115). -/
theorem Tide.formHead_of_not_good (h : t.up.state ≠ .good ∨ t.down.state ≠ .good) :
    t.formHead fresh now =
      if t.head.isSome then ({ t.forget .head with head := none, confirmCount := 0, confirmSide := none }, [], .lost)
      else (t, [], .none) :=
  if_neg (not_and_or.2 h)

end

end Sys2Proof.Machine

namespace Sys2Proof.Proofs

open Sys2Proof.Machine

/-- Settles O44: by the state of the threshold, the side of the head sample, the length of the history and the states of
the gauges. -/
theorem thresholdRule : Obligations.ThresholdRule := by
  unfold Obligations.ThresholdRule
  refine ⟨fun r v => ?evaluate, fun t sig v now => ⟨?offer, rfl⟩, fun t head now => ?confirm, fun t x now => ?append,
    fun t fresh now => ?head⟩
  case evaluate =>
    exact ⟨Threshold.evaluate_of_unknown,
      fun st up => (Threshold.evaluate_of_below st).trans (if_pos up),
      fun st under => (Threshold.evaluate_of_below st).trans (if_neg (not_le.2 under)),
      fun st down => (Threshold.evaluate_of_above st).trans (if_pos down),
      fun st within => (Threshold.evaluate_of_above st).trans (if_neg (not_lt.2 within))⟩
  case offer =>
    rw [t.offerTo_all]
    simp only [Threshold.after, Threshold.raises, Threshold.serves_iff]
  case confirm =>
    intro side count
    refine ⟨Tide.confirm_of_no_side, fun qualifies below => ?counted, fun ebb reached => ?ebb, fun flood reached => ?flood⟩
    case counted =>
      obtain ⟨x, toward⟩ := Option.isSome_iff_exists.1 qualifies
      rw [Tide.confirm_of_side toward, ← toward]
      exact if_neg (not_le.2 below)
    case ebb =>
      rw [Tide.confirm_of_side ebb, ← ebb]
      exact if_pos reached
    case flood =>
      rw [Tide.confirm_of_side flood, ← flood]
      exact if_pos reached
  case append =>
    intro h rise kept
    exact ⟨Tide.append_of_not_full,
      fun full calm low => (Tide.append_of_calm full calm).trans (if_neg (not_lt.2 low)),
      fun full calm high => (Tide.append_of_calm full calm).trans (if_pos high),
      fun full surge low => (Tide.append_of_surge full surge).trans (if_pos low),
      fun full surge high => (Tide.append_of_surge full surge).trans (if_neg (not_lt.2 high))⟩
  case head =>
    exact ⟨fun _ _ => Tide.formHead_fresh, Tide.formHead_stale,
      fun out known => (Tide.formHead_of_not_good out).trans (if_pos known),
      fun out unknown => (Tide.formHead_of_not_good out).trans (by simp [unknown])⟩

end Sys2Proof.Proofs
end

section
/-! The arrivals at a gauge (R110 to R114): the record a sample or a silence leaves, the steps that follow it in the
monitor, and the hand-over of what they leave. -/

namespace Sys2Proof.Machine

open Sys2Proof.Safety

/-! ### The record of a gauge (R110 to R113) -/

section

variable {r : GaugeRec} {x : Int}

theorem GaugeRec.valid_of_range (ok : r.low ≤ x ∧ x ≤ r.high) : r.valid x = true := by simp [GaugeRec.valid, ok]

theorem GaugeRec.valid_of_not_range (bad : ¬(r.low ≤ x ∧ x ≤ r.high)) : r.valid x = false := by
  simpa [GaugeRec.valid] using bad

/-- A valid level makes the gauge GOOD, a FAULTED one at the third in a row, with GAUGE_OK (R111, R112). -/
theorem GaugeRec.sample_of_range (ok : r.low ≤ x ∧ x ≤ r.high) :
    r.sample x =
      ({ r with silence := some 5000, level := some x,
                state := if r.state = .faulted ∧ r.recovery < 2 then .faulted else .good,
                recovery := if r.state = .faulted then (if r.recovery < 2 then r.recovery + 1 else 0) else r.recovery },
        if r.state = .faulted ∧ 2 ≤ r.recovery then some (.gaugeOk, x) else none) := by
  have valid := GaugeRec.valid_of_range ok
  cases st : r.state with
  | unknown => simp [GaugeRec.sample, GaugeRec.received, Config.gaugeSilence, st, valid]
  | good => simp [GaugeRec.sample, GaugeRec.received, Config.gaugeSilence, st, valid]
  | faulted =>
    by_cases third : 2 ≤ r.recovery
    · have late : ¬r.recovery ≤ 1 := by omega
      simp [GaugeRec.sample, GaugeRec.received, Config.gaugeSilence, st, valid, third, late]
    · have early : r.recovery ≤ 1 := by omega
      simp [GaugeRec.sample, GaugeRec.received, Config.gaugeSilence, st, valid, third, early]

/-- A level out of range makes the gauge FAULTED, a GOOD one with GAUGE_FAULT (R111, R112). -/
theorem GaugeRec.sample_of_not_range (bad : ¬(r.low ≤ x ∧ x ≤ r.high)) :
    r.sample x = ({ r with silence := some 5000, state := .faulted, recovery := 0 },
      if r.state = .good then some (.gaugeFault, x) else none) := by
  have invalid := GaugeRec.valid_of_not_range bad
  cases st : r.state with
  | unknown | good | faulted => simp [GaugeRec.sample, GaugeRec.received, Config.gaugeSilence, st, invalid]

end

/-! ### The gauges of the monitor after an arrival -/

@[simp] theorem Tide.gauge_setGauge_self (t : Tide) (g : Gauge) (r : GaugeRec) : (t.setGauge g r).gauge g = r := by
  cases g <;> rfl

theorem Tide.gauge_setGauge_ne (t : Tide) {g h : Gauge} (r : GaugeRec) (ne : h ≠ g) :
    (t.setGauge g r).gauge h = t.gauge h := by
  cases g with
  | up =>
    cases h with
    | up => exact absurd rfl ne
    | down => rfl
  | down =>
    cases h with
    | up => rfl
    | down => exact absurd rfl ne

theorem Tide.gauge_append (t : Tide) (x : Int) (now : Clock) : (t.append x now).1.gauge = t.gauge := by
  unfold Tide.append
  simp only
  split
  · rfl
  · split <;> rfl
  · split <;> rfl

theorem Tide.gauge_offerTo (t : Tide) (sig : Signal) (v : Int) (now : Clock) (l : List ThrNo) :
    (t.offerTo sig v now l).1.gauge = t.gauge := by
  obtain ⟨r, others⟩ := Tide.offerTo_others sig v now l t
  rw [others]
  rfl

theorem Tide.gauge_confirm (t : Tide) (head : Int) (now : Clock) : (t.confirm head now).1.gauge = t.gauge := by
  cases side : t.qualifies head with
  | none =>
    rw [Tide.confirm_of_no_side side]
    rfl
  | some x =>
    rw [Tide.confirm_of_side side]
    exact (apply_ite (fun a : Tide × List TideEvent => a.1.gauge) _ _ _).trans (ite_self _)

theorem Tide.gauge_formHead (t : Tide) (fresh : Bool) (now : Clock) : (t.formHead fresh now).1.gauge = t.gauge := by
  unfold Tide.formHead
  split
  · split
    · exact (Tide.gauge_confirm _ _ _).trans (Tide.gauge_offerTo _ _ _ _ _)
    · rfl
  · split <;> rfl

theorem Tide.gauge_keepHistory (t : Tide) (g : Gauge) (r : GaugeRec) (w : Bool) (now : Clock) :
    (t.keepHistory g r w now).1.gauge = t.gauge := by
  unfold Tide.keepHistory
  split
  · exact Tide.gauge_append _ _ _
  · split <;> rfl
  · rfl

theorem Tide.gauge_serveLevel (t : Tide) (g : Gauge) (r : GaugeRec) (w : Bool) (now : Clock) :
    (t.serveLevel g r w now).1.gauge = t.gauge := by
  unfold Tide.serveLevel
  split
  · exact Tide.gauge_offerTo _ _ _ _ _
  · rfl
  · split <;> rfl

/-- Steps 2 to 4 leave the gauges as step 1 did (R114). -/
theorem Tide.gauge_serve (t : Tide) (g : Gauge) (r : GaugeRec) (now : Clock) :
    (t.serve g r now).1.gauge = (t.setGauge g r).gauge :=
  (Tide.gauge_formHead _ _ _).trans ((Tide.gauge_serveLevel _ _ _ _ _).trans (Tide.gauge_keepHistory _ _ _ _ _))

/-! ### The steps of an arrival (R114) -/

section

variable {r : GaugeRec}

theorem Tide.keepHistory_of_good (t : Tide) (g : Gauge) (w : Bool) (now : Clock) {x : Int} (st : r.state = .good)
    (level : r.level = some x) :
    t.keepHistory g r w now = if g = .down then t.append x now else (t, []) := by
  cases g with
  | up | down => simp [Tide.keepHistory, st, level]

/-- As the DOWN gauge leaves GOOD the history is emptied and the surge mark cleared (R123). -/
theorem Tide.keepHistory_of_leaving (t : Tide) (g : Gauge) (now : Clock) (st : r.state ≠ .good) :
    t.keepHistory g r true now = (if g = .down then { t with history := [], surge := false } else t, []) := by
  cases g with
  | up | down => simp [Tide.keepHistory, st]

theorem Tide.keepHistory_of_out (t : Tide) (g : Gauge) (now : Clock) (st : r.state ≠ .good) :
    t.keepHistory g r false now = (t, []) := by
  cases g with
  | up | down => simp [Tide.keepHistory, st]

/-- A fresh level of a GOOD gauge: history, thresholds, head (R114). -/
theorem Tide.serve_of_good (t : Tide) (g : Gauge) (now : Clock) {x : Int} (st : r.state = .good)
    (level : r.level = some x) :
    let a := if g = .down then (t.setGauge g r).append x now else (t.setGauge g r, [])
    let b := a.1.offerTo (gaugeSignal g) x now allThresholds
    let c := b.1.formHead true now
    t.serve g r now = (c.1, a.2 ++ b.2 ++ c.2.1, c.2.2) := by
  simp only [Tide.serve, Tide.keepHistory_of_good _ _ _ _ st level, Tide.serveLevel, st, level, decide_true]

/-- The gauge leaves GOOD: history, thresholds and head go, without an event of their own (R118, R123). -/
theorem Tide.serve_of_leaving (t : Tide) (g : Gauge) (now : Clock) (st : r.state ≠ .good)
    (before : (t.gauge g).state = .good) :
    t.serve g r now =
      ((if g = .down then { t.setGauge g r with history := [], surge := false } else t.setGauge g r).forget
        (gaugeSignal g)).formHead false now := by
  simp only [Tide.serve, before, decide_true, Tide.keepHistory_of_leaving _ _ _ st, Tide.serveLevel, decide_eq_false st,
    if_true, List.nil_append]

/-- The gauge stays out of GOOD: the head alone is looked at (R115). -/
theorem Tide.serve_of_out (t : Tide) (g : Gauge) (now : Clock) (st : r.state ≠ .good)
    (before : (t.gauge g).state ≠ .good) : t.serve g r now = (t.setGauge g r).formHead false now := by
  simp only [Tide.serve, decide_eq_false before, Tide.keepHistory_of_out _ _ _ st, Tide.serveLevel, decide_eq_false st,
    Bool.false_eq_true, if_false, List.nil_append]

end

/-- The event of the sample itself (R111, R112, R125). -/
theorem gaugeEvents_sample (g : Gauge) (r : GaugeRec) (x : Int) (now : Clock) :
    let event := fun k : EventKind =>
      [({ kind := k, index := none, gauge := some g, value := x, time := now } : TideEvent)]
    gaugeEvents g (r.sample x).2 now =
      if r.state = .good ∧ ¬(r.low ≤ x ∧ x ≤ r.high) then event .gaugeFault
      else if r.state = .faulted ∧ (r.low ≤ x ∧ x ≤ r.high) ∧ 2 ≤ r.recovery then event .gaugeOk else [] := by
  by_cases ok : r.low ≤ x ∧ x ≤ r.high
  · rw [GaugeRec.sample_of_range ok]
    by_cases third : r.state = .faulted ∧ 2 ≤ r.recovery
    · simp [gaugeEvents, ok, third]
    · simp [gaugeEvents, ok, third]
  · rw [GaugeRec.sample_of_not_range ok]
    by_cases good : r.state = .good
    · simp [gaugeEvents, ok, good]
    · simp [gaugeEvents, ok, good]

/-- The event of the silence itself (R113, R125). -/
theorem gaugeEvents_silent (g : Gauge) (r : GaugeRec) (now : Clock) :
    gaugeEvents g r.silent.2 now =
      if r.state = .good then
        [{ kind := .gaugeFault, index := none, gauge := some g, value := r.level.getD 0, time := now }]
      else [] := by
  unfold GaugeRec.silent
  split
  · next good =>
    rw [if_pos good]
    rfl
  · next out =>
    rw [if_neg out]
    rfl

/-- The record a silence leaves (R113). -/
theorem GaugeRec.record_silent (r : GaugeRec) :
    r.silent.1 = { r with silence := none, recovery := 0, state := .faulted } := by
  unfold GaugeRec.silent
  split <;> rfl

/-- The record a sample leaves (R110 to R113). -/
theorem GaugeRec.record_sample (r : GaugeRec) (x : Int) :
    (r.sample x).1 = { r with
      silence := some 5000, level := if r.low ≤ x ∧ x ≤ r.high then some x else r.level,
      state := if r.low ≤ x ∧ x ≤ r.high then (if r.state = .faulted ∧ r.recovery < 2 then .faulted else .good)
               else .faulted,
      recovery := if r.state = .faulted ∧ (r.low ≤ x ∧ x ≤ r.high) ∧ r.recovery < 2 then r.recovery + 1
                  else if r.state = .faulted ∨ ¬(r.low ≤ x ∧ x ≤ r.high) then 0 else r.recovery } := by
  by_cases ok : r.low ≤ x ∧ x ≤ r.high
  · rw [GaugeRec.sample_of_range ok]
    by_cases faulted : r.state = .faulted
    · simp [ok, faulted]
    · simp [ok, faulted]
  · rw [GaugeRec.sample_of_not_range ok]
    simp [ok]

/-! ### The hand-over (R114, R126) -/

/-- The hand-over leaves the monitor, the clock and more besides. -/
theorem State.keptBM_afterTide (s : State) (res : Tide × List TideEvent × HeadChange) :
    KeptButMode (s.setTide res.1) (s.afterTide res) :=
  (State.keptBM_handOver _ _).trans (Touch.foldl (fun s e => s.touch_handEvent e) _ _).kept.butMode

/-- What an arrival leaves of the monitor and the clock at its end. -/
theorem State.finish_afterTide (s : State) (res : Tide × List TideEvent × HeadChange) :
    (s.afterTide res).finish.tide = res.1 ∧ (s.afterTide res).finish.clock = s.clock :=
  have kept := (s.keptBM_afterTide res).trans (State.keptBM_finish _)
  ⟨kept.tide, kept.clock⟩

/-- The events of an arrival are handed on one after another (R126). -/
theorem State.afterTide_append (s : State) (t : Tide) (l : List TideEvent) (e : TideEvent) (c : HeadChange) :
    s.afterTide (t, l ++ [e], c) = (s.afterTide (t, l, c)).handEvent e := List.foldl_append

/-! ### The commands -/

section

variable {s : State} {g h : Gauge}

theorem exec_gaugeSample (released : s.resetHeld = false) (g : Gauge) (x : Int) :
    exec (.gaugeSample g x) s = .next (s.afterTide (s.tide.sample g x s.clock)).finish :=
  event_released released fun s => s.gaugeSample g x

theorem State.gaugeSilence_of_running (runs : (s.tide.gauge g).silence.isSome = true) :
    s.gaugeSilence g = s.afterTide (s.tide.silent g s.clock) := by
  obtain ⟨n, running⟩ := Option.isSome_iff_exists.1 runs
  simp only [State.gaugeSilence, running]

theorem State.gaugeSilence_of_stopped (stopped : (s.tide.gauge g).silence = none) : s.gaugeSilence g = s := by
  simp only [State.gaugeSilence, stopped]

theorem exec_gaugeSilenceExpiry (released : s.resetHeld = false) (runs : (s.tide.gauge g).silence.isSome = true) :
    exec (.gaugeSilenceExpiry g) s = .next (s.afterTide (s.tide.silent g s.clock)).finish := by
  rw [← State.gaugeSilence_of_running runs]
  exact event_released released fun s => s.gaugeSilence g

/-- An arrival at gauge `g` that leaves record `r`: the other gauge and the clock stay (R110, R114). -/
theorem arrival_gauges {i : Instr} {res : Tide × List TideEvent × HeadChange} {r : GaugeRec}
    (run : exec i s = .next (s.afterTide res).finish) (served : res.1.gauge = (s.tide.setGauge g r).gauge) (ne : h ≠ g) :
    ∃ t, exec i s = .next t ∧ t.clock = s.clock ∧ t.tide.gauge h = s.tide.gauge h ∧ t.tide.gauge g = r := by
  obtain ⟨tide, clock⟩ := s.finish_afterTide res
  refine ⟨_, run, clock, ?_, ?_⟩
  · rw [tide, served, Tide.gauge_setGauge_ne _ _ ne]
  · rw [tide, served, Tide.gauge_setGauge_self]

end

end Sys2Proof.Machine

namespace Sys2Proof.Proofs

open Sys2Proof.Machine Sys2Proof.Safety

/-- Settles O43: the record of step 1, then steps 2 to 4 by the state that record leaves and the state before it, then
the hand-over. -/
theorem gaugeRecordFollows : Obligations.GaugeRecordFollows := by
  unfold Obligations.GaugeRecordFollows
  refine ⟨fun g h s released ne => ⟨fun x => ?sampled, fun runs => ?silent, fun stopped m => ?idle⟩,
    fun g s released => ⟨exec_gaugeSample released g, exec_gaugeSilenceExpiry released⟩,
    fun t g now => ⟨fun x => ?sampleEvents, ?silentEvents⟩, fun t g r now => ?steps, fun t l e c s => ?handOver⟩
  case sampled =>
    exact arrival_gauges (exec_gaugeSample released g x)
      ((Tide.gauge_serve _ _ _ _).trans (by rw [GaugeRec.record_sample])) ne
  case silent =>
    exact arrival_gauges (exec_gaugeSilenceExpiry released runs)
      ((Tide.gauge_serve _ _ _ _).trans (by rw [GaugeRec.record_silent])) ne
  case idle =>
    exact event_of_same (f := fun s => s.gaugeSilence g) released m (State.gaugeSilence_of_stopped stopped)
  case sampleEvents =>
    simp only [Tide.sample, gaugeEvents_sample]
  case silentEvents =>
    simp only [Tide.silent, gaugeEvents_silent, GaugeRec.record_silent]
  case steps =>
    intro t' signal
    have same : signal = gaugeSignal g := by cases g <;> rfl
    rw [same]
    exact ⟨fun x => Tide.serve_of_good t g now, Tide.serve_of_leaving t g now, Tide.serve_of_out t g now⟩
  case handOver =>
    exact ⟨rfl, s.afterTide_append t l e c, (s.keptBM_afterTide (t, l, c)).tide⟩

end Sys2Proof.Proofs
end

section
/-! The pool through every command (R143, R144): its partitions and queues follow the writes of `Written`. -/

namespace Sys2Proof.Machine

open Sys2Proof.Safety

/-! ### Partitions that share a cell (R144) -/

theorem Queue.overlaps_iff (q : Queue) (base size : Nat) :
    q.overlaps base size = true ↔ q.size ≠ 0 ∧ base < q.base + q.size ∧ q.base < base + size := by
  simp [Queue.overlaps, and_assoc]

/-- A queue without cells shares none (R144). -/
theorem Queue.overlaps_of_size_zero {q : Queue} (base size : Nat) (h : q.size = 0) : q.overlaps base size = false := by
  simp [Queue.overlaps, h]

/-- Of two partitions with cells, the one shares a cell with the other as the other with it. -/
theorem Queue.overlaps_comm {q r : Queue} (hq : q.size ≠ 0) (hr : r.size ≠ 0) :
    q.overlaps r.base r.size = r.overlaps q.base q.size := by
  rw [Bool.eq_iff_iff, Queue.overlaps_iff, Queue.overlaps_iff]
  exact ⟨fun h => ⟨hr, h.2.2, h.2.1⟩, fun h => ⟨hq, h.2.2, h.2.1⟩⟩

theorem mem_allGates : ∀ g : GateNo, g ∈ allGates := by decide

variable {s t : State} {g : GateNo} {q : Queue}

theorem State.overlapsOther_iff (s : State) (g : GateNo) (base size : Nat) :
    s.overlapsOther g base size = true ↔ ∃ h, h ≠ g ∧ (s.queue h).overlaps base size = true := by
  simp [State.overlapsOther, mem_allGates]

/-- No other partition shares a cell with what passes the OVERLAP test (R144). -/
theorem State.overlaps_of_not_overlapsOther {base size : Nat} (apart : s.overlapsOther g base size = false) {h : GateNo}
    (ne : h ≠ g) : (s.queue h).overlaps base size = false := by
  by_contra shared
  have found := (s.overlapsOther_iff g base size).2 ⟨h, ne, eq_true_of_ne_false shared⟩
  rw [apart] at found
  cases found

/-! ### One queue written -/

theorem State.queuesFit_setQueue (ok : QueuesFit s) (level : q.level ≤ q.size) (pool : q.base + q.size ≤ 256) :
    QueuesFit (s.setQueue g q) := by
  intro h
  rw [State.queue_setQueue]
  split
  · exact ⟨level, pool⟩
  · exact ok h

/-- A partition that is empty or shares no cell with another gate's may be written (R144). -/
theorem State.partitionsApart_setQueue (ok : PartitionsApart s)
    (apart : q.size = 0 ∨ s.overlapsOther g q.base q.size = false) : PartitionsApart (s.setQueue g q) := by
  intro a b ne cells
  simp only [State.queue_setQueue] at cells ⊢
  by_cases ha : g = a <;> by_cases hb : g = b
  · exact absurd (ha.symm.trans hb) ne
  · rw [if_pos ha, if_neg hb]
    rw [if_neg hb] at cells
    by_cases own : q.size = 0
    · exact Queue.overlaps_of_size_zero _ _ own
    · rw [Queue.overlaps_comm own cells]
      exact State.overlaps_of_not_overlapsOther (apart.resolve_left own) (Ne.symm hb)
  · rw [if_neg ha, if_pos hb]
    rw [if_pos hb] at cells
    exact State.overlaps_of_not_overlapsOther (apart.resolve_left cells) (Ne.symm ha)
  · rw [if_neg ha, if_neg hb]
    rw [if_neg hb] at cells
    exact ok a b ne cells

/-- Where partitions are apart, the OVERLAP test passes for each as it stands. -/
theorem State.overlapsOther_own (ok : PartitionsApart s) (g : GateNo) :
    (s.queue g).size = 0 ∨ s.overlapsOther g (s.queue g).base (s.queue g).size = false := by
  refine Classical.or_iff_not_imp_left.2 fun cells => Bool.eq_false_iff.2 fun shared => ?_
  obtain ⟨h, ne, overlap⟩ := (s.overlapsOther_iff g _ _).1 shared
  rw [ok h g ne cells] at overlap
  cases overlap

/-- A queue written within its partition keeps the partitions apart. -/
theorem State.partitionsApart_setQueue_same (ok : PartitionsApart s) (base : q.base = (s.queue g).base)
    (size : q.size = (s.queue g).size) : PartitionsApart (s.setQueue g q) :=
  s.partitionsApart_setQueue ok (by rw [base, size]; exact s.overlapsOther_own ok g)

/-- PUSH_POINTS appends no more points than there is room for (R148). -/
theorem Queue.level_appended (q : Queue) (l : List Point) (fits : q.level ≤ q.size) :
    (q.appended l).level ≤ q.size := by
  unfold Queue.level at fits
  simp only [Queue.appended, Queue.level, List.length_append, List.length_take]
  omega

/-- No field is bad where every check holds. -/
theorem firstBad_eq_none_iff (l : List (Nat × Bool)) : firstBad l = none ↔ ∀ c ∈ l, c.2 = true := by
  induction l with
  | nil => simp [firstBad]
  | cons c l ih =>
    obtain ⟨n, ok⟩ := c
    cases ok <;> simp [firstBad, ih]

/-- A partition that passes the checks of CONFIGURE_QUEUE lies within the pool (R144). -/
theorem within_pool_of_queueChecks {f : RawQueue} (pass : firstBad (queueChecks f) = none) : f.base + f.size ≤ 256 := by
  have field : ([0, 4, 8, 16, 32, 64, 128].contains f.size && decide (f.base + f.size ≤ 256)) = true :=
    (firstBad_eq_none_iff _).1 pass (3, _) (.tail _ (.tail _ (.head _)))
  exact of_decide_eq_true (Bool.and_eq_true_iff.1 field).2

/-! ### The laws of the pool -/

/-- Taking the lock writes the lock and its slot alone (R64). -/
theorem State.queue_takeLock (s : State) (k : SlotNo) (g : GateNo) : (s.takeLock k).queue g = s.queue g := by
  unfold State.takeLock
  exact (apply_ite (fun t : State => t.queue g) _ _ _).trans (ite_self _)

theorem State.queue_coldReset (s : State) (strap : LinkRate) (g : GateNo) : (s.coldReset strap).queue g = Queue.cold :=
  Vector.getElem_replicate g.isLt

theorem Written.queuesFit (w : Written s t) (ok : QueuesFit s) : QueuesFit t := by
  induction w with
  | trans _ _ first second => exact second (first ok)
  | kept h => exact h.fit ok
  | takeLock s k => exact fun g => s.queue_takeLock k g ▸ ok g
  | pushed s g l => exact s.queuesFit_setQueue ok (Queue.level_appended _ l (ok g).1) (ok g).2
  | flushed s g => exact s.queuesFit_setQueue ok (Nat.zero_le _) (ok g).2
  | partitioned s g f pass vacant apart =>
    refine s.queuesFit_setQueue ok ?_ (within_pool_of_queueChecks pass)
    by_cases same : (s.queue g).base = f.base ∧ (s.queue g).size = f.size
    · exact (ok g).1.trans_eq same.2
    · have empty : (s.queue g).points = [] := by
        by_contra held
        exact vacant ⟨same, held⟩
      simp [Queue.level, Queue.configured, empty]
  | coldReset s strap =>
    intro g
    rw [s.queue_coldReset]
    exact ⟨Nat.zero_le 0, Nat.zero_le 256⟩
  | _ => exact ok

theorem Written.partitionsApart (w : Written s t) (ok : PartitionsApart s) : PartitionsApart t := by
  induction w with
  | trans _ _ first second => exact second (first ok)
  | kept h => exact h.apart ok
  | takeLock s k =>
    intro g h
    rw [s.queue_takeLock, s.queue_takeLock]
    exact ok g h
  | pushed s g l => exact s.partitionsApart_setQueue_same ok rfl rfl
  | flushed s g => exact s.partitionsApart_setQueue_same ok rfl rfl
  | partitioned s g f pass vacant apart =>
    refine s.partitionsApart_setQueue ok ?_
    by_cases cells : f.size = 0
    · exact .inl cells
    · exact .inr (Bool.eq_false_iff.2 fun shared => apart ⟨Nat.pos_of_ne_zero cells, shared⟩)
  | coldReset s strap =>
    intro g h _ _
    rw [s.queue_coldReset strap g]
    exact Queue.overlaps_of_size_zero _ _ rfl
  | _ => exact ok

end Sys2Proof.Machine

namespace Sys2Proof.Proofs

open Sys2Proof.Machine Sys2Proof.Safety

/-- Settles O56: every step is a run of writes, each of which keeps both laws. -/
theorem stepKeepsPoolLawful : Obligations.StepKeepsPoolLawful := by
  unfold Obligations.StepKeepsPoolLawful
  exact ⟨fun _ _ ok h => (Written.step h).queuesFit ok, fun _ _ ok h => (Written.step h).partitionsApart ok⟩

end Sys2Proof.Proofs
end

section
/-! CONFIGURE_QUEUE (R144). -/

namespace Sys2Proof.Machine

open Sys2Proof.Safety

variable {s : State} {g : GateNo} {f : RawQueue}

/-- CONFIGURE_QUEUE with its fields in range: its two refusals, in their order, and the queue it writes (R144). -/
theorem State.serveQueue_of_pass (gate : f.gate = g.val) (pass : firstBad (queueChecks f) = none) :
    s.serveQueue f =
      if ¬((s.queue g).base = f.base ∧ (s.queue g).size = f.size) ∧ (s.queue g).points ≠ [] then s.refuse .notEmpty
      else if 0 < f.size ∧ s.overlapsOther g f.base f.size = true then s.refuse .overlap
      else (s.setQueue g ((s.queue g).configured f)).taken := by
  rw [State.serveQueue, State.checked_pass s _ pass, gate, gateOf_val, State.named_some]

/-- A partition that stands, or changes with the queue empty, is not refused NOT_EMPTY (R144). -/
theorem not_notEmpty {p : Prop} {l : List Point} (h : p ∨ l = []) : ¬(¬p ∧ l ≠ []) :=
  fun ⟨changed, held⟩ => h.elim changed held

end Sys2Proof.Machine

namespace Sys2Proof.Proofs

open Sys2Proof.Machine Sys2Proof.Safety

/-- Settles O18: by the two refusals in their order. -/
theorem configureQueueWrites : Obligations.ConfigureQueueWrites := by
  unfold Obligations.ConfigureQueueWrites
  refine ⟨fun n g f d s l m mode gate dir pass => ?request, fun g base size s => ?sharedCell⟩
  case request =>
    have test : s.modeTest (.configureQueue f) = none := State.modeTest_of_config mode _
    have serve := State.serveQueue_of_pass (s := s) gate pass
    refine ⟨fun vacant apart => ?written, fun changed held => ?notEmpty, fun vacant cells shared => ?overlap⟩
    case written =>
      have clear : ¬(0 < f.size ∧ s.overlapsOther g f.base f.size = true) := by
        rintro ⟨cells, shared⟩
        obtain none | free := apart
        · omega
        · exact Bool.eq_false_iff.1 free shared
      rw [if_neg (not_notEmpty vacant), if_neg clear, Queue.configured, dir, Option.getD_some] at serve
      exact request_served l test (by simp) (serve.trans (State.taken_of_marksClear (s := s.setQueue _ _) m)) rfl
    case notEmpty =>
      rw [if_pos ⟨changed, held⟩] at serve
      exact request_served l test (by simp) serve rfl
    case overlap =>
      rw [if_neg (not_notEmpty vacant), if_pos ⟨cells, shared⟩] at serve
      exact request_served l test (by simp) serve rfl
  case sharedCell => simp only [State.overlapsOther_iff, Queue.overlaps_iff]

end Sys2Proof.Proofs
end

section
/-! PUSH_POINTS and FLUSH_POINTS (R146 to R151). -/

namespace Sys2Proof.Machine

open Sys2Proof.Safety

variable {s : State} {g : GateNo}

/-! ### PUSH_POINTS -/

/-- The points appended and the RISING test made, before a HELD gate is resumed (R148, R149). -/
def State.withPoints (s : State) (g : GateNo) (l : List Point) : State :=
  let q := s.queue g
  let q' := q.appended l
  let t := s.setQueue g q'
  if q.limitDir = .rising ∧ q.level ≤ q.limit ∧ q.limit < q'.level then
    t.notify (.profileLevel g q'.level q.limit .rising s.clock)
  else t

@[simp] theorem State.gate_withPoints (s : State) (g h : GateNo) (l : List Point) :
    (s.withPoints g l).gate h = s.gate h :=
  (apply_ite (fun t : State => t.gate h) _ _ _).trans (ite_self _)

@[simp] theorem State.marks_withPoints (s : State) (g : GateNo) (l : List Point) :
    (s.withPoints g l).marks = s.marks :=
  (apply_ite State.marks _ _ _).trans (ite_self _)

theorem Queue.rises_iff (q : Queue) (after : Nat) :
    q.rises after = true ↔ q.limitDir = .rising ∧ q.level ≤ q.limit ∧ q.limit < after := by
  simp [Queue.rises, and_assoc]

/-- A push is the appending of its points, and the entry to TRAVEL of a HELD gate that got one (R148). -/
theorem State.push_eq (s : State) (g : GateNo) (l : List Point) :
    s.push g l = if (s.gate g).state = .held ∧ (s.queue g).level < ((s.queue g).appended l).level then
      (s.withPoints g l).enterTravel g else s.withPoints g l := by
  have told : s.withPoints g l = if (s.queue g).rises ((s.queue g).appended l).level then
      (s.setQueue g ((s.queue g).appended l)).notify
        (.profileLevel g ((s.queue g).appended l).level (s.queue g).limit .rising s.clock)
      else s.setQueue g ((s.queue g).appended l) := by
    simp only [State.withPoints, Queue.rises_iff]
  rw [← s.gate_withPoints g g l, told]
  rfl

/-- A push of at least one point raises the level exactly where the queue has room (R148). -/
theorem Queue.level_lt_appended_iff (q : Queue) {l : List Point} (some_point : 1 ≤ l.length) :
    q.level < (q.appended l).level ↔ q.size - q.level ≠ 0 := by
  simp only [Queue.appended, Queue.level, List.length_append, List.length_take]
  omega

theorem firstBad_pointLimits {openingMax : Int} {l : List RawPoint} (i : Nat) (h : ∀ p ∈ l, p.target ≤ openingMax) :
    firstBad (pointLimits openingMax i l) = none := by
  induction l generalizing i with
  | nil => rfl
  | cons p l ih =>
    rw [pointLimits, firstBad_cons_of_true _ _ (decide_eq_true (h p (.head _)))]
    exact ih _ fun x hx => h x (.tail _ hx)

/-- The answer to a push of `n` points: how many the queue had room for (R148). -/
def Queue.pushAnswer (q : Queue) (n : Nat) : Answer :=
  { status := if q.size - q.level < n then .queueFull else .ok, detail := 0,
    data := [BitVec.ofNat 8 (min n (q.size - q.level))] }

/-- PUSH_POINTS that passes its checks: the number of points taken, and the event of the push (R146 to R148). -/
theorem State.servePush_of_pass {l : List RawPoint} (lo : 1 ≤ l.length) (hi : l.length ≤ 16)
    (points : firstBad (pointChecks 0 l) = none) (present : (s.gate g).state ≠ .absent) (cells : (s.queue g).size ≠ 0)
    (limits : ∀ p ∈ l, p.target ≤ (s.gate g).params.openingMax) :
    s.servePush g.val l =
      ((s.queue g).pushAnswer l.length, (s.push g (l.map pointOf)).finish) := by
  have pass : firstBad ((1, inNat 0 5 g.val) :: (2, inNat 1 16 l.length) :: pointChecks 0 l) = none := by
    rw [firstBad_cons_of_true _ _ (inNat_gate g), firstBad_cons_of_true _ _ (inNat_eq_true lo hi), points]
  have dropped : min l.length ((s.queue g).size - (s.queue g).level) < l.length ↔
      (s.queue g).size - (s.queue g).level < l.length := by omega
  rw [State.servePush, State.checked_pass s _ pass, gateOf_val, State.named_some, if_neg present, if_neg cells,
    State.checked_pass s _ (firstBad_pointLimits 0 limits)]
  simp only [dropped, encU8, Queue.pushAnswer]

/-! ### FLUSH_POINTS -/

/-- FLUSH_POINTS: its two refusals, in the model's order (log 33), and the queue emptied (R151). -/
theorem State.serveFlush_gate (s : State) (g : GateNo) :
    s.serveFlush g.val =
      if (s.queue g).size = 0 then s.refuse .noQueue
      else if s.streamActive g = true then s.refuse .streamActive
      else (s.setQueue g (s.queue g).emptied).taken := by
  rw [State.serveFlush, gateOf_val, State.named_some]

end Sys2Proof.Machine

namespace Sys2Proof.Proofs

open Sys2Proof.Machine Sys2Proof.Safety

/-- Settles O46: a push by whether a HELD gate got a point, a flush by its two refusals in the model's order. -/
theorem poolRequestsWrite : Obligations.PoolRequestsWrite := by
  unfold Obligations.PoolRequestsWrite
  refine ⟨fun n g l s listening m mode lo hi points present cells limits => ?push, fun n g s listening m mode => ?flush⟩
  case push =>
    have serve : s.serve (.pushPoints g.val l) = _ := State.servePush_of_pass lo hi points present cells limits
    have pushed := s.push_eq g (l.map pointOf)
    have raised := (s.queue g).level_lt_appended_iff (l := l.map pointOf) (by rwa [List.length_map])
    have test : s.modeTest (.pushPoints g.val l) = none := State.modeTest_of_anyMode mode rfl (by simp)
    intro q room q' s' s'' r
    have told : s'' = s.withPoints g (l.map pointOf) := rfl
    have replied : ∀ t, s.serve (.pushPoints g.val l) = ((s.queue g).pushAnswer l.length, t) →
        exec (.pushPoints n g.val l) s = .next (t.reply s.link.line.isNone r) :=
      fun t served => request_replied (a := (s.queue g).pushAnswer l.length) listening test (by simp) served
    rw [told]
    refine ⟨fun still => ?still, fun held room => ?resumed⟩
    case still =>
      have stays : ¬((s.gate g).state = .held ∧ (s.queue g).level < ((s.queue g).appended (l.map pointOf)).level) := by
        rw [raised]
        exact fun ⟨held, room⟩ => still.elim (· held) room
      refine replied _ (serve.trans ?_)
      rw [pushed, if_neg stays,
        State.finish_of_marksClear (s := s.withPoints g _) ((s.marks_withPoints g _).trans m)]
    case resumed =>
      refine replied _ (serve.trans ?_)
      rw [pushed, if_pos ⟨held, raised.2 room⟩]
  case flush =>
    have serve := s.serveFlush_gate g
    have test : s.modeTest (.flushPoints g.val) = none := State.modeTest_of_anyMode mode rfl (by simp)
    refine ⟨fun none => ?noQueue, fun cells active => ?streamActive, fun cells idle => ?emptied⟩
    case noQueue =>
      rw [if_pos none] at serve
      exact request_served (r := .flushPoints g.val) listening test (by simp) serve rfl
    case streamActive =>
      rw [if_neg cells, if_pos active] at serve
      exact request_served (r := .flushPoints g.val) listening test (by simp) serve rfl
    case emptied =>
      rw [if_neg cells, if_neg (Bool.eq_false_iff.1 idle)] at serve
      exact request_served (r := .flushPoints g.val) listening test (by simp)
        (serve.trans (State.taken_of_marksClear (s := s.setQueue _ _) m)) rfl

end Sys2Proof.Proofs
end

section
/-! The pop of a point, and a STREAM gate in TRAVEL: reach, entry, and the drive toward its target (R25, R149, R153 to
R158). -/

namespace Sys2Proof.Machine

open Sys2Proof.Safety

variable {s t : State} {g : GateNo} {r r' : GateRec}

/-! ### Pending outcomes (R30) -/

theorem Move.setPending_eq (m : Move) (o : OrderOutcome) :
    m.setPending o = { m with outcome := (m.setPending o).outcome } := by
  unfold Move.setPending
  split <;> rfl

theorem Move.order_setPending (m : Move) (o : OrderOutcome) : (m.setPending o).order = m.order := by
  rw [m.setPending_eq]

/-- An outcome other than STOPPED fills an empty place only (R30). -/
theorem Move.outcome_setPending (m : Move) {o : OrderOutcome} (h : o ≠ .stopped) :
    (m.setPending o).outcome = some (m.outcome.getD o) := by
  unfold Move.setPending
  split
  · exact absurd rfl h
  · next free => simp [free]
  · next taken => simp [taken]

/-! ### The envelope's check of a target -/

theorem State.ceiling_congr (envelope : t.envelope = s.envelope) (gate : t.gate g = s.gate g) :
    t.ceiling g = s.ceiling g := by
  unfold State.ceiling
  rw [envelope, gate]

theorem GateRec.checkEnvelope_of_none {c : Int} (h : r.envelopeChange c = none) : r.checkEnvelope c = r := by
  simp only [GateRec.checkEnvelope, h]

theorem GateRec.envelopeChange_of_unlimited {o : RunOrder} {x w c : Int} (order : r.move.order = some o)
    (opening : r.opening = some x) (target : r.move.target = some w) (free : limitedTarget o.kind o.rule x c w = none) :
    r.envelopeChange c = none := by
  simp only [GateRec.envelopeChange, order, opening, target, free, Option.map_none]

/-- A change of target leaves the order of the move (R28). -/
theorem GateRec.order_changeTarget (r : GateRec) (rule : EnvRule) (w : Int) :
    (r.changeTarget rule w).move.order = r.move.order := by
  cases rule with
  | refuse => exact Move.order_setPending _ _
  | clamp | override => rfl

theorem GateRec.order_checkEnvelope (r : GateRec) (c : Int) : (r.checkEnvelope c).move.order = r.move.order := by
  unfold GateRec.checkEnvelope
  split
  · exact r.order_changeTarget _ _
  · rfl

/-! ### The pop (R149, R153, R154) -/

/-- A point taken leaves the order of the move. -/
theorem GateRec.kind_takePoint (r : GateRec) (p : Point) (c : Int) : (r.takePoint p c).kind = r.kind :=
  congrArg (Option.map RunOrder.kind) ((r.takeTarget p.target).order_checkEnvelope c)

/-- A point that the envelope does not limit: its target within 0 to opening_max, its tag, and the rate of its distance
(R153, R154). -/
theorem GateRec.move_takePoint {p : Point} {o : RunOrder} {x c : Int} (order : r.move.order = some o)
    (opening : r.opening = some x)
    (free : limitedTarget o.kind o.rule x c (capTarget r.params.openingMax p.target) = none) :
    (r.takePoint p c).move = { r.move with
      target := some (capTarget r.params.openingMax p.target), tag := some p.tag,
      rate := some (streamRate (capTarget r.params.openingMax p.target - x) p.stepTime),
      clamped := r.move.clamped || decide (r.params.openingMax < p.target) } := by
  have unchanged : (r.takeTarget p.target).checkEnvelope c = r.takeTarget p.target :=
    GateRec.checkEnvelope_of_none (GateRec.envelopeChange_of_unlimited order opening rfl free)
  have opening' : (r.takeTarget p.target).opening = some x := opening
  unfold GateRec.takePoint
  simp only [unchanged, opening']
  rfl

/-- What a pop of `p` leaves before the gate takes the point: the queue without it, `n` points still held, and the
notices of the FALLING limit and of a MARK point (R149, R153). -/
def State.popTold (s : State) (g : GateNo) (p : Point) (n : Nat) : State :=
  let q := s.queue g
  let t := s.setQueue g q.popped
  let u := if q.limitDir = .falling ∧ q.level = q.limit then
      t.notify (.profileLevel g n q.limit .falling t.clock) else t
  if p.tag = .mark then u.notify (.profileMark g ((u.gate g).move.slot.getD 0) p n u.clock) else u

/-- A notice that may be told changes nothing but the link port. -/
theorem State.proj_told {α : Type} (proj : State → α) (same : ∀ u n, proj (State.notify u n) = proj u) (c : Prop)
    [Decidable c] (u : State) (n : Notice) : proj (if c then u.notify n else u) = proj u := by
  rw [apply_ite proj, same, ite_self]

theorem State.proj_popTold {α : Type} (proj : State → α) (same : ∀ u n, proj (State.notify u n) = proj u) (s : State)
    (g : GateNo) (p : Point) (n : Nat) : proj (s.popTold g p n) = proj (s.setQueue g (s.queue g).popped) :=
  (State.proj_told proj same _ _ _).trans (State.proj_told proj same _ _ _)

@[simp] theorem State.gate_popTold (s : State) (g h : GateNo) (p : Point) (n : Nat) :
    (s.popTold g p n).gate h = s.gate h :=
  s.proj_popTold (fun u => u.gate h) (fun _ _ => rfl) g p n

@[simp] theorem State.envelope_popTold (s : State) (g : GateNo) (p : Point) (n : Nat) :
    (s.popTold g p n).envelope = s.envelope :=
  s.proj_popTold State.envelope (fun _ _ => rfl) g p n

@[simp] theorem State.queue_popTold (s : State) (g h : GateNo) (p : Point) (n : Nat) :
    (s.popTold g p n).queue h = (s.setQueue g (s.queue g).popped).queue h :=
  s.proj_popTold (fun u => u.queue h) (fun _ _ => rfl) g p n

theorem State.link_popTold (s : State) (g : GateNo) (p : Point) (n : Nat) :
    (s.popTold g p n).link =
      let l := (if (s.queue g).limitDir = .falling ∧ (s.queue g).level = (s.queue g).limit then
        s.notify (.profileLevel g n (s.queue g).limit .falling s.clock) else s).link
      if p.tag = .mark then l.take (.profileMark g ((s.gate g).move.slot.getD 0) p n s.clock) else l := by
  unfold State.popTold
  simp only [apply_ite State.link, State.link_notify, State.proj_told (fun u => u.gate g) (fun _ _ => rfl),
    State.proj_told State.clock (fun _ _ => rfl)]
  rfl

/-- A pop of the oldest point (R153). -/
theorem State.pop_of_points {p : Point} {rest : List Point} (points : (s.queue g).points = p :: rest) :
    s.pop g = (s.popTold g p rest.length).setGate g ((s.gate g).takePoint p (s.ceiling g)) := by
  have told : s.pop g = (s.popTold g p rest.length).modGate g fun r =>
      r.takePoint p ((s.popTold g p rest.length).ceiling g) := by
    simp only [State.pop, points]
    rfl
  rw [told, State.modGate, State.gate_popTold, State.ceiling_congr (s.envelope_popTold g p _) (s.gate_popTold g g p _)]

/-- A pop leaves the kind of its gate's order. -/
theorem State.kind_pop (s : State) (g : GateNo) : ((s.pop g).gate g).kind = (s.gate g).kind := by
  cases points : (s.queue g).points with
  | nil => simp only [State.pop, points]
  | cons p rest => rw [State.pop_of_points points, State.gate_setGate_self, GateRec.kind_takePoint]

/-! ### Entry to LOCKING and HELD -/

theorem GateRec.entersLocking (r : GateRec) (o : OrderOutcome) :
    EntersLocking r { r.locking with move := r.locking.move.setPending o } := by
  refine ⟨rfl, rfl, rfl, rfl, rfl, fun e => ?_, ?_⟩
  · cases e <;> rfl
  · exact r.locking.move.setPending_eq o

/-- Entry to LOCKING with a pin not ENGAGED yet (R31). -/
theorem State.enterLocking_of_pins (o : OrderOutcome) (pins : s.bothPins g .engaged = false) :
    s.enterLocking g o =
      s.setGate g { (s.gate g).locking with move := (s.gate g).locking.move.setPending o } := by
  have same : (s.modGate g fun r => { r.locking with move := r.locking.move.setPending o }).bothPins g .engaged =
      s.bothPins g .engaged := State.bothPins_setGate _ rfl
  simp only [State.enterLocking, same, pins, Bool.false_eq_true, if_false]
  rfl

/-- Entry to HELD of a gate whose record is `r` (R158). -/
theorem State.enterHeld_setGate (s : State) (g : GateNo) (r : GateRec) :
    (s.setGate g r).enterHeld g = (s.setGate g (heldRecord r (s.queue g).holdTime)).notify
      (.streamHeld g (r.move.slot.getD 0) r.move.target (r.opening.getD 0) s.clock) := by
  simp only [State.enterHeld, State.modGate, State.gate_setGate_self, State.setGate_setGate]
  rfl

/-! ### The reach and the entry of a STREAM gate (R155, R156) -/

/-- The reach test of a STREAM gate: a point popped is tested in its turn (R156). -/
theorem State.reachTest_stream (kind : (s.gate g).kind = some .stream) :
    s.reachTest g =
      if (s.gate g).reached = false then s
      else if (s.gate g).move.cut = true then s.enterLocking g .cut
      else if (s.gate g).move.tag = some .last ∨ (s.gate g).move.final = true then s.modGate g GateRec.settling
      else if (s.queue g).points = [] then s.enterHeld g
      else (s.pop g).reachTest g := by
  have test : ∀ {u : State}, (u.gate g).kind = some .stream →
      u.reachTest g = State.streamReach ((u.queue g).level + 1) g u := by
    intro u stream
    simp only [State.reachTest, stream]
  rw [test kind, State.streamReach, test ((s.kind_pop g).trans kind)]
  simp only [List.isEmpty_iff]
  cases points : (s.queue g).points with
  | nil => simp
  | cons p rest =>
    have level : ((s.pop g).queue g).level + 1 = (s.queue g).level := by
      rw [State.pop_of_points points, State.queue_setGate, State.queue_popTold, State.queue_setQueue_self]
      simp [Queue.popped, Queue.level, points]
    rw [level]

/-- The record of a gate as it enters TRAVEL (R21, R155). -/
def GateRec.inTravel (r : GateRec) : GateRec :=
  { r with state := .travel, phase := none, move := { r.move with hold := none } }

/-- A STREAM gate that enters TRAVEL without the cut mark (R155). -/
theorem State.enterTravel_stream (kind : (s.gate g).kind = some .stream) (uncut : (s.gate g).move.cut = false) :
    s.enterTravel g =
      let u := s.setGate g (s.gate g).inTravel
      if (s.gate g).move.final = true then u.travelEntry g
      else if (s.queue g).points = [] then u.enterHeld g
      else (u.pop g).travelEntry g := by
  have entered : (s.modGate g fun r => { r with state := .travel, phase := none, move := { r.move with hold := none } })
      = s.setGate g (s.gate g).inTravel := rfl
  have kind' : (s.gate g).inTravel.kind = some .stream := kind
  have uncut' : (s.gate g).inTravel.move.cut = false := uncut
  have final' : (s.gate g).inTravel.move.final = (s.gate g).move.final := rfl
  unfold State.enterTravel
  simp only [entered, State.gate_setGate_self, kind', uncut', final', Bool.false_eq_true, if_false,
    State.queue_setGate, List.isEmpty_iff]

theorem State.modGate_checkEnvelope (free : (s.gate g).envelopeChange (s.ceiling g) = none) :
    (s.modGate g fun r => r.checkEnvelope (s.ceiling g)) = s := by
  rw [State.modGate, GateRec.checkEnvelope_of_none free, State.setGate_gate]

/-- The entry with a target that the envelope does not limit, where nothing trips (R21, R155). -/
theorem State.travelEntry_of_untripped (free : (s.gate g).envelopeChange (s.ceiling g) = none)
    (untripped : (s.gate g).travelTrip = none) : s.travelEntry g = (s.reachTest g).setValves g := by
  simp only [State.travelEntry, State.modGate_checkEnvelope free, untripped]

/-- The entry with a target that the envelope does not limit, where a check trips the gate (R21 to R23). -/
theorem State.travelEntry_of_trip (free : (s.gate g).envelopeChange (s.ceiling g) = none) {c : TripCause}
    {further : BitVec 7} {e : Concern} (trip : (s.gate g).travelTrip = some (c, further, e)) :
    s.travelEntry g = s.tripGate g c further e := by
  simp only [State.travelEntry, State.modGate_checkEnvelope free, trip]

/-! ### What TRAVEL reads of a gate (R22 to R25) -/

/-- `r'` has the parameters, the move and the held openings of `r`. -/
structure SameReadings (r r' : GateRec) : Prop where
  params : r'.params = r.params
  move : r'.move = r.move
  endL : r'.endL.held = r.endL.held
  endR : r'.endR.held = r.endR.held

namespace SameReadings

variable (same : SameReadings r r')

include same

theorem kind : r'.kind = r.kind := congrArg (fun m : Move => m.order.map RunOrder.kind) same.move

theorem opening : r'.opening = r.opening := by
  unfold GateRec.opening
  rw [same.endL, same.endR]

theorem skew : r'.skew = r.skew := by
  unfold GateRec.skew
  rw [same.endL, same.endR]

theorem skewTripped : r'.skewTripped = r.skewTripped := by
  unfold GateRec.skewTripped
  rw [same.skew, same.kind, same.move, same.params]

theorem skewConcern : r'.skewConcern = r.skewConcern := by
  unfold GateRec.skewConcern
  rw [same.skew, same.kind, same.move]

theorem travelTrip : r'.travelTrip = r.travelTrip := by
  unfold GateRec.travelTrip EndRec.overtravel
  rw [same.params, same.endL, same.endR, same.skewTripped, same.skewConcern]

end SameReadings

theorem EndRec.held_watch (e : EndRec) : e.watch.held = e.held := by
  unfold EndRec.watch
  split
  · split <;> rfl
  · rfl

/-- The stall watch leaves what TRAVEL reads (R27). -/
theorem GateRec.sameReadings_watch (r : GateRec) (e : HoistEnd) : SameReadings r (r.modEnd e EndRec.watch) := by
  cases e with
  | l => exact ⟨rfl, rfl, r.endL.held_watch, rfl⟩
  | r => exact ⟨rfl, rfl, rfl, r.endR.held_watch⟩

/-! ### The drive of a STREAM gate (R25, R154) -/

section

variable {o : RunOrder} {c w : Int} (order : r.move.order = some o) (stream : o.kind = .stream)
  (opening : r.opening = some c) (target : r.move.target = some w)

include order stream

theorem GateRec.kind_of_stream : r.kind = some .stream := by simp [GateRec.kind, order, stream]

include opening

theorem GateRec.compared_of_stream : r.compared = some c := by
  simp [GateRec.compared, GateRec.kind_of_stream order stream, opening]

include target

theorem GateRec.reached_of_stream : r.reached = decide (mag (c - w) ≤ r.params.deadband) := by
  simp [GateRec.reached, GateRec.compared_of_stream order stream opening, target]

theorem GateRec.raising_of_stream : r.raising = decide (c < w) := by
  simp [GateRec.raising, GateRec.compared_of_stream order stream opening, target]

/-- The stream rate, SLOW inside approach (R25, R154). -/
theorem GateRec.rateNow_of_stream :
    r.rateNow = if mag (w - c) < r.params.approach then 2 else r.move.rate.getD 2 := by
  simp [GateRec.rateNow, GateRec.baseRate, GateRec.compared_of_stream order stream opening, target, order, stream]

end

/-- With no trim end recorded and the skew within skew_trim, no trim begins (R26). -/
theorem GateRec.trim_of_within {k : Int} (kind : r.kind = some .stream) (skew : r.skew = some k)
    (untrimmed : r.move.trimEnd = none) (within : mag k ≤ r.params.skewTrim) : r.trim = r := by
  simp only [GateRec.trim, kind, skew, untrimmed, not_lt.2 within, if_false]

/-- A recorded trim end alone is followed (R26). -/
theorem GateRec.followTrim_of_untrimmed (untrimmed : r.move.trimEnd = none) : r.followTrim = r := by
  simp only [GateRec.followTrim, untrimmed]

theorem EndRec.valve_drive (e : EndRec) (v : Valve) : (e.drive v).valve = v :=
  (apply_ite EndRec.valve _ _ _).trans (ite_self v)

/-- Without a trim end both ends of a STREAM gate are driven (R25). -/
theorem GateRec.valve_setValves (kind : r.kind = some .stream) (untrimmed : r.move.trimEnd = none) (y : HoistEnd) :
    (r.setValves.hoist y).valve = if r.raising = true then .raise r.rateNow else .lower r.rateNow := by
  have driven : ∀ e, (r.driveEnd e).valve = if r.raising = true then .raise r.rateNow else .lower r.rateNow := by
    intro e
    have drives : r.drives e = true := by
      simp only [GateRec.drives, kind, untrimmed]
      rfl
    rw [GateRec.driveEnd, if_pos drives, EndRec.valve_drive]
  unfold GateRec.setValves
  rw [GateRec.followTrim_of_untrimmed untrimmed]
  cases y with
  | l => exact driven .l
  | r => exact driven .r

/-- Setting the valves of a gate without a trim end leaves its state and its move (R25). -/
theorem GateRec.setValves_keeps (untrimmed : r.move.trimEnd = none) :
    r.setValves.state = r.state ∧ r.setValves.move = r.move := by
  unfold GateRec.setValves
  rw [GateRec.followTrim_of_untrimmed untrimmed]
  exact ⟨rfl, rfl⟩

/-! ### An accepted sample in TRAVEL (R25) -/

/-- A sample of a GOOD end of a gate in TRAVEL that passes both tests and trips nothing (R7, R25). -/
theorem State.encoderSample_of_travel {ch : Channel} {count p n : Nat} {e : HoistEnd} {x : Int}
    (he : (s.gate g).params.swap.endOf ch = e) (hx : (s.gate g).params.opening e count = x)
    (travel : (s.gate g).state = .travel) (pass : passesTests ((s.gate g).hoist e) x n)
    (untripped : (accepts (s.gate g) e x p).travelTrip = none) :
    s.encoderSample g ch count p n =
      let u := (s.setGate g ((accepts (s.gate g) e x p).modEnd e EndRec.watch)).reachTest g
      if (u.gate g).state = .travel then u.modGate g fun r => r.trim.setValves else u := by
  have accepted : ((s.gate g).modEnd e fun _ => { ((s.gate g).hoist e).received x p with held := some x }) =
      accepts (s.gate g) e x p := by
    cases e <;> rfl
  have state : (accepts (s.gate g) e x p).state = .travel := (GateRec.state_modEnd _ _ _).trans travel
  have trip : ((accepts (s.gate g) e x p).modEnd e EndRec.watch).travelTrip = none :=
    (GateRec.sameReadings_watch _ e).travelTrip.trans untripped
  rw [State.encoderSample_of_sample he hx (by simp [travel]) (EndRec.sample_passing _ x p n pass) (by simp), accepted]
  simp only [State.afterSample, State.travelSample, State.modGate, State.gate_setGate_self, State.setGate_setGate,
    state, trip]

/-- A sample changes the record of its end alone (R6). -/
theorem accepts_keeps (r : GateRec) (e : HoistEnd) (x : Int) (p : Nat) :
    (accepts r e x p).params = r.params ∧ (accepts r e x p).move = r.move := by
  cases e with
  | l => exact ⟨rfl, rfl⟩
  | r => exact ⟨rfl, rfl⟩

/-- A STREAM gate short of its target, with no trim end and none to begin, has its valves set and nothing else changed
(R25). -/
theorem State.drive_of_short {o : RunOrder} {c w k : Int} (order : r.move.order = some o) (stream : o.kind = .stream)
    (opening : r.opening = some c) (target : r.move.target = some w) (skew : r.skew = some k)
    (travel : r.state = .travel) (short : r.params.deadband < mag (c - w)) (untrimmed : r.move.trimEnd = none)
    (within : mag k ≤ r.params.skewTrim) :
    (let u := (s.setGate g r).reachTest g
     if (u.gate g).state = .travel then u.modGate g fun r => r.trim.setValves else u) = s.setGate g r.setValves := by
  have kind := GateRec.kind_of_stream order stream
  have unreached : r.reached = false := by
    rw [GateRec.reached_of_stream order stream opening target]
    exact decide_eq_false (not_le.2 short)
  have still : (s.setGate g r).reachTest g = s.setGate g r := by
    rw [State.reachTest_stream (by rwa [State.gate_setGate_self]), State.gate_setGate_self, if_pos unreached]
  simp only [still, State.gate_setGate_self, travel, if_true, State.modGate, State.setGate_setGate,
    GateRec.trim_of_within kind skew untrimmed within]

end Sys2Proof.Machine

namespace Sys2Proof.Proofs

open Sys2Proof.Machine Sys2Proof.Safety

/-- Settles O47: the pop by the record it leaves, the reach and the entry by the marks and the queue of the gate, the
sample by whether the target is reached. -/
theorem popTakesOldestPoint : Obligations.PopTakesOldestPoint := by
  unfold Obligations.PopTakesOldestPoint
  refine ⟨fun g p rest x o s points opening order => ?pop, fun g s => ?stream, fun g s free =>
    ⟨State.travelEntry_of_untripped free, fun _ _ _ trip => State.travelEntry_of_trip free trip⟩,
    fun g ch count pressure elapsed o c w k s released m => ?sample⟩
  case pop =>
    intro _ free
    have others : ∀ h, h ≠ g → (s.pop g).gate h = s.gate h ∧ (s.pop g).queue h = s.queue h :=
      fun h ne => (s.touch_pop g).others (Ne.symm ne)
    rw [State.pop_of_points points] at others ⊢
    refine ⟨?queue, ?move, others, s.link_popTold g p rest.length⟩
    case queue =>
      rw [State.queue_setGate, State.queue_popTold, State.queue_setQueue_self, Queue.popped, points, List.tail_cons]
    case move =>
      rw [State.gate_setGate_self]
      exact GateRec.move_takePoint order opening free
  case stream =>
    intro r held entered kind
    have reach := State.reachTest_stream kind
    have reached_uncut := fun (reached : r.reached = true) (uncut : r.move.cut = false) =>
      (reach.trans (if_neg (ne_false_of_eq_true reached))).trans (if_neg (ne_true_of_eq_false uncut))
    have reached_on := fun reached uncut (more : r.move.tag ≠ some .last) (on : r.move.final = false) =>
      (reached_uncut reached uncut).trans (if_neg (·.elim more (ne_true_of_eq_false on)))
    refine ⟨fun short => reach.trans (if_pos short), fun reached cut pins => ?cut,
      fun reached uncut => ⟨fun last => (reached_uncut reached uncut).trans (if_pos last), fun more on =>
        ⟨fun empty => (reached_on reached uncut more on).trans (if_pos empty),
          fun points => (reached_on reached uncut more on).trans (if_neg points)⟩⟩,
      fun uncut => ?enter⟩
    case cut =>
      rw [reach, if_neg (ne_false_of_eq_true reached), if_pos cut, State.enterLocking_of_pins _ pins]
      exact ⟨_, rfl, r.entersLocking .cut, r.locking.move.outcome_setPending (by simp)⟩
    case enter =>
      have enter := State.enterTravel_stream kind uncut
      have enter_on := fun on : r.move.final = false => enter.trans (if_neg (ne_true_of_eq_false on))
      exact ⟨fun final => enter.trans (if_pos final), fun on =>
        ⟨fun empty => ((enter_on on).trans (if_pos empty)).trans (s.enterHeld_setGate g _),
          fun points => (enter_on on).trans (if_neg points)⟩⟩
  case sample =>
    intro r e x r1 travel order stream pass opening skew target untripped
    have sample := State.encoderSample_of_travel (s := s) (g := g) (ch := ch) (count := count) (p := pressure) rfl rfl
      travel pass untripped
    refine ⟨fun _ => ?reached, fun short untrimmed within => ?driven⟩
    case reached => rw [exec_encoderSample released, sample]
    case driven =>
      have same := r1.sameReadings_watch e
      have state : (r1.modEnd e EndRec.watch).state = .travel :=
        (GateRec.state_modEnd _ _ _).trans ((GateRec.state_modEnd _ _ _).trans travel)
      generalize r1.modEnd e EndRec.watch = r2 at same state sample
      obtain ⟨params, move⟩ := accepts_keeps r e x pressure
      replace params : r2.params = r.params := same.params.trans params
      replace move : r2.move = r.move := same.move.trans move
      rw [← move] at order target untrimmed
      rw [← params] at short within
      replace opening := same.opening.trans opening
      have driven := State.drive_of_short (s := s) (g := g) order stream opening target (same.skew.trans skew) state
        short untrimmed within
      obtain ⟨stays, moves⟩ := GateRec.setValves_keeps untrimmed
      refine ⟨r2.setValves, ?_, stays.trans state, moves.trans move, fun y => ?_⟩
      · rw [exec_encoderSample released, sample.trans driven]
        exact congrArg _ (State.finish_of_marksClear (s := s.setGate g _) m)
      · rw [GateRec.valve_setValves (GateRec.kind_of_stream order stream) untrimmed,
          GateRec.raising_of_stream order stream opening target, GateRec.rateNow_of_stream order stream opening target,
          params, move]
        simp only [decide_eq_true_eq]

end Sys2Proof.Proofs
end

section
/-! The requests that write the stage table, and the cell a value is written into (R165 to R168). -/

namespace Sys2Proof.Machine

open Sys2Proof.Safety

/-- A number from that of `a` up is in range. -/
theorem inNat_from {n : Nat} {a b : Fin (n + 1)} (h : a ≤ b) : inNat a.val n b.val = true :=
  inNat_eq_true h (Nat.le_of_lt_succ b.isLt)

theorem inNat_fin {n : Nat} (a : Fin (n + 1)) : inNat 0 n a.val = true := inNat_from (Fin.zero_le a)

/-! ### The requests -/

section

variable (s : State)

/-- SET_LOAD_WINDOW with its fields in range (R166). -/
theorem State.serveLoadWindow_of_range {a b : StepNo} {c d : GateNo} {v : Nat} {w : Advance} (steps : a ≤ b)
    (gates : c ≤ d) (order : advanceOf v = some w) :
    s.serveLoadWindow { firstStep := a.val, lastStep := b.val, firstGate := c.val, lastGate := d.val, advance := v } =
      (s.setStage { s.stage with
        window := { firstStep := a, lastStep := b, firstGate := c, lastGate := d, advance := w },
        pointer := (a, c) }).taken := by
  have pass : firstBad (windowChecks ⟨a.val, b.val, c.val, d.val, v⟩) = none := by
    simp [windowChecks, firstBad, inNat_fin, inNat_from steps, inNat_from gates, order]
  rw [State.serveLoadWindow, State.checked_pass s _ pass]
  simp only [stepOf_val, gateOf_val, order, Option.getD_some]

/-- Values that are EMPTY or within 12 000 mm pass the checks of WRITE_CELLS (R167). -/
theorem firstBad_valueChecks {l : List Nat} (i : Nat) (h : ∀ x ∈ l, x = 65535 ∨ x ≤ 12000) :
    firstBad (valueChecks i l) = none := by
  induction l generalizing i with
  | nil => rfl
  | cons x l ih =>
    have ok : cellValueOk x = true := by simpa [cellValueOk, inNat] using h x (.head _)
    rw [valueChecks, firstBad_cons_of_true _ _ ok]
    exact ih _ fun y hy => h y (.tail _ hy)

/-- WRITE_CELLS with its values in range (R167). -/
theorem State.serveWriteCells_of_range {l : List Nat} (lo : 1 ≤ l.length) (hi : l.length ≤ 32)
    (values : ∀ x ∈ l, x = 65535 ∨ x ≤ 12000) :
    s.serveWriteCells l = (.ok (encPointer ((l.map cellOf).foldl Stage.writeCell s.stage).pointer),
      s.setStage ((l.map cellOf).foldl Stage.writeCell s.stage)) := by
  have pass : firstBad ((1, inNat 1 32 l.length) :: valueChecks 0 l) = none := by
    rw [firstBad_cons_of_true _ _ (inNat_eq_true lo hi), firstBad_valueChecks 0 values]
  rw [State.serveWriteCells, State.checked_pass s _ pass]

/-- SET_STEP_DWELL with a dwell in range (R168). -/
theorem State.serveStepDwell_of_range (i : StepNo) {x : Nat} (hi : x ≤ 3600) :
    s.serveStepDwell i.val x = (s.setStage { s.stage with
      steps := s.stage.steps.set i.val { s.stage.steps.get i with dwell := x } i.isLt }).taken := by
  have pass : firstBad [(2, inNat 0 3600 x)] = none := by simp [firstBad, inNat_eq_true, hi]
  rw [State.serveStepDwell, stepOf_val, State.named_some, State.checked_pass s _ pass]

end

/-! ### One value written (R167) -/

section

variable (t : Stage) (v : Option Int)

theorem Stage.step_writeCell (i : StepNo) :
    (t.writeCell v).steps.get i =
      if t.pointer.1 = i then
        { t.steps.get t.pointer.1 with
          cells := (t.steps.get t.pointer.1).cells.set t.pointer.2.val v t.pointer.2.isLt }
      else t.steps.get i := by
  simp only [Stage.writeCell, Vector.get_eq_getElem, Vector.getElem_set, Fin.ext_iff]

/-- The value is in the cell at the pointer, and every other cell as it was. -/
theorem Stage.cell_writeCell (i : StepNo) (g : GateNo) :
    ((t.writeCell v).steps.get i).cells.get g = if (i, g) = t.pointer then v else (t.steps.get i).cells.get g := by
  rw [t.step_writeCell v i]
  by_cases step : t.pointer.1 = i
  · subst step
    by_cases gate : t.pointer.2 = g
    · subst gate
      simp [Vector.get_eq_getElem]
    · have other : (t.pointer.1, g) ≠ t.pointer := fun h => gate (congrArg Prod.snd h).symm
      simp [Vector.get_eq_getElem, ← Fin.ext_iff, gate, other]
  · have other : (i, g) ≠ t.pointer := fun h => step (congrArg Prod.fst h).symm
    rw [if_neg step, if_neg other]

theorem Stage.dwell_writeCell (i : StepNo) : ((t.writeCell v).steps.get i).dwell = (t.steps.get i).dwell := by
  rw [t.step_writeCell v i]
  split
  · next step => rw [← step]
  · rfl

end

/-! ### The pointer's way through the window (R167) -/

section

variable {w : LoadWindow} {p : StepNo × GateNo}

theorem LoadWindow.next_gateFirst (h : w.advance = .gateFirst) :
    w.next p = if p.2 ≠ w.lastGate then (p.1, p.2 + 1) else if p.1 ≠ w.lastStep then (p.1 + 1, w.firstGate)
      else (w.firstStep, w.firstGate) := by
  rw [LoadWindow.next, h]

theorem LoadWindow.next_stepFirst (h : w.advance = .stepFirst) :
    w.next p = if p.1 ≠ w.lastStep then (p.1 + 1, p.2) else if p.2 ≠ w.lastGate then (w.firstStep, p.2 + 1)
      else (w.firstStep, w.firstGate) := by
  rw [LoadWindow.next, h]

/-- From the last cell the pointer goes back to the first, whatever the advance order. -/
theorem LoadWindow.next_last (w : LoadWindow) : w.next (w.lastStep, w.lastGate) = (w.firstStep, w.firstGate) := by
  cases h : w.advance with
  | gateFirst => simp [LoadWindow.next_gateFirst h]
  | stepFirst => simp [LoadWindow.next_stepFirst h]

end

end Sys2Proof.Machine

namespace Sys2Proof.Proofs

open Sys2Proof.Machine Sys2Proof.Safety

/-- Settles O48: each request passes its checks; a write by the cell it goes to, the pointer by the advance order. -/
theorem stageTableWrites : Obligations.StageTableWrites := by
  unfold Obligations.StageTableWrites
  refine ⟨fun n s l m mode => ?requests, fun t v => ?written⟩
  case requests =>
    have test : ∀ r, configOnly r = false → r ≠ .startSequence → s.modeTest r = none :=
      fun _ => State.modeTest_of_anyMode mode
    have stays : ∀ t, (s.setStage t).taken = (.ok [], s.setStage t) :=
      fun t => State.taken_of_marksClear (s := s.setStage t) m
    refine ⟨fun a b c d v w steps gates order => ?window, fun values lo hi range => ?cells, fun i x hi => ?dwell⟩
    case window =>
      exact request_served (r := .setLoadWindow _) l (test _ rfl (by simp)) (by simp)
        ((s.serveLoadWindow_of_range steps gates order).trans (stays _)) rfl
    case cells =>
      exact request_served (r := .writeCells values) l (test _ rfl (by simp)) (by simp)
        (s.serveWriteCells_of_range lo hi range) rfl
    case dwell =>
      exact request_served (r := .setStepDwell i.val x) l (test _ rfl (by simp)) (by simp)
        ((s.serveStepDwell_of_range i hi).trans (stays _)) rfl
  case written =>
    intro w t'
    have moved : t'.pointer = w.next t.pointer := rfl
    refine ⟨t.cell_writeCell v, t.dwell_writeCell v, rfl, fun order => ?gateFirst, fun order => ?stepFirst,
      fun last => ?last⟩
    case gateFirst =>
      rw [moved, LoadWindow.next_gateFirst order]
      exact ⟨fun gate => if_pos gate, fun gate step => (if_neg (not_not.2 gate)).trans (if_pos step)⟩
    case stepFirst =>
      rw [moved, LoadWindow.next_stepFirst order]
      exact ⟨fun step => if_pos step, fun step gate => (if_neg (not_not.2 step)).trans (if_pos gate)⟩
    case last => rw [moved, last, w.next_last]

end Sys2Proof.Proofs
end

section
/-! The end of a sequence by STOP_SEQUENCE and by interference (R52, R179 to R181). -/

namespace Sys2Proof.Machine

open Sys2Proof.Safety

section

variable {s : State} {k : SlotNo} {g : GateNo}

/-! ### Withdrawals and winding down (R72, R180) -/

/-- Freeing a slot calls for no posting attempt outside POSTING (R173). -/
theorem State.freeSlot_outside_posting (st : s.runner.state ≠ .posting) :
    s.freeSlot k = s.rewritten k Slot.empty := by
  have awaited : s.awaited k = false := by
    unfold State.awaited
    rw [beq_eq_false_iff_ne.2 st, Bool.false_and]
  rw [State.freeSlot_eq, State.attemptCalled, awaited]
  rfl

/-- The withdrawal of a PENDING slot frees it, and its entry leaves the outstanding list (R72). -/
theorem State.withdraw_of_pending (st : s.runner.state ≠ .posting) (owner : (s.slot k).owner = .sequence)
    (pending : (s.slot k).state = .pending) :
    s.withdraw k = (s.rewritten k Slot.empty).setRunner (s.runner.remove k) := by
  unfold State.withdraw
  simp only [owner, pending, true_or, and_self, if_true]
  rw [State.handBackOf_of_not_granted _ (by simp [pending]), State.freeSlot_outside_posting st]
  rfl

/-- A RUNNING slot is not withdrawn (R72). -/
theorem State.withdraw_of_running (running : (s.slot k).state = .running) : s.withdraw k = s :=
  if_neg fun h => by simp [running] at h

theorem State.foldl_withdraw_of_running {l : List SlotNo} (running : ∀ j ∈ l, (s.slot j).state = .running) :
    l.foldl State.withdraw s = s := by
  induction l with
  | nil => rfl
  | cons j l ih =>
    rw [List.foldl_cons, State.withdraw_of_running (running j (.head _))]
    exact ih fun i hi => running i (.tail _ hi)

/-- With only RUNNING slots outstanding the runner waits for them in WINDING_DOWN (R180). -/
theorem State.windDown_of_running (o : EndOutcome) (c : Option FailCause) (j : Option SlotNo)
    (out : s.runner.outstanding ≠ []) (running : ∀ e ∈ s.runner.outstanding, (s.slot e.1).state = .running) :
    s.windDown o c j = s.setRunner (s.runner.toWinding o c j) := by
  have withdrawn : (s.runner.outstanding.map Prod.fst).foldl State.withdraw (s.setRunner (s.runner.toWinding o c j)) =
      s.setRunner (s.runner.toWinding o c j) := by
    refine State.foldl_withdraw_of_running fun i hi => ?_
    obtain ⟨e, he, rfl⟩ := List.mem_map.1 hi
    exact running e he
  exact (congrArg State.endIfEmpty withdrawn).trans (State.endIfEmpty_of_outstanding out)

/-- The withdrawal of the last outstanding slot, a PENDING one, ends the sequence (R180). -/
theorem State.windDown_of_pending (o : EndOutcome) (c : Option FailCause) (j : Option SlotNo)
    (out : s.runner.outstanding = [(k, g)]) (owner : (s.slot k).owner = .sequence)
    (pending : (s.slot k).state = .pending) :
    s.windDown o c j = ((s.rewritten k Slot.empty).setRunner .idle).notify
      (.sequenceEnd o (s.runner.step.getD 0) (s.runner.pass.getD 0) c j s.clock) := by
  have withdrawn := State.withdraw_of_pending (s := s.setRunner (s.runner.toWinding o c j)) (k := k)
    (by simp [Runner.toWinding]) owner pending
  have nothing : ((s.runner.toWinding o c j).remove k).outstanding = [] := by
    simp [Runner.remove, Runner.toWinding, out]
  have last : (s.modRunner fun r => r.toWinding o c j).runner.outstanding = [(k, g)] := out
  unfold State.windDown
  simp only [last, List.map_cons, List.map_nil, List.foldl_cons, List.foldl_nil]
  exact (congrArg State.endIfEmpty withdrawn).trans (State.endIfEmpty_of_empty rfl nothing rfl)

/-! ### STOP_SEQUENCE (R181) -/

theorem State.serveStop_of_idle (st : s.runner.state = .idle) : s.serveStop = s.refuse .nothingToStop := by
  rw [State.serveStop, st]

theorem State.serveStop_of_windingDown (st : s.runner.state = .windingDown) : s.serveStop = s.taken := by
  simp only [State.serveStop, State.stopRunner, st]

/-- In POSTING, STEP and DWELL the runner winds down to ABORTED (R181). -/
theorem State.serveStop_of_active
    (st : s.runner.state = .posting ∨ s.runner.state = .step ∨ s.runner.state = .dwell) :
    s.serveStop = (s.windDown .aborted none none).taken := by
  obtain st | st | st := st <;> simp only [State.serveStop, State.stopRunner, st]

/-! ### Interference (R52) -/

/-- WITHDRAW_ORDER of the one outstanding slot of a runner in STEP ends the sequence (R51, R52). -/
theorem State.withdrawOrder_of_last (owner : (s.slot k).owner = .sequence)
    (held : (s.slot k).state = .pending ∨ (s.slot k).state = .done) (st : s.runner.state = .step)
    (out : s.runner.outstanding = [(k, g)]) :
    s.withdrawOrder k = ((s.rewritten k Slot.empty).setRunner .idle).notify
      (.sequenceEnd .failed (s.runner.step.getD 0) (s.runner.pass.getD 0) (some .interfered) (some k) s.clock) := by
  have ofRunner : (s.slot k).ofRunner = true := by
    unfold Slot.ofRunner
    obtain e | e := held <;> rw [owner, e] <;> rfl
  have granted : (s.slot k).state ≠ .granted := by
    obtain e | e := held <;> rw [e] <;> simp
  unfold State.withdrawOrder State.interfereIf
  simp only
  rw [State.handBackOf_of_not_granted _ granted, ofRunner, if_pos rfl, State.freeSlot_outside_posting (by simp [st])]
  exact State.interfere_of_last (s := s.rewritten k _) st out

end

end Sys2Proof.Machine

namespace Sys2Proof.Proofs

open Sys2Proof.Machine Sys2Proof.Safety

/-- Settles O50: STOP_SEQUENCE by the runner's state and the states of the outstanding slots; the withdrawal as
interference with the last outstanding slot. -/
theorem sequenceStops : Obligations.SequenceStops := by
  unfold Obligations.SequenceStops
  refine ⟨fun n s l m mode => ?stop, fun n k g s l m mode owner held step out => ?interfered⟩
  case stop =>
    have notResetting : s.mode ≠ .resetting := by
      obtain h | h | h := mode <;> simp [h]
    have test : s.modeTest .stopSequence = none := State.modeTest_of_anyMode notResetting rfl (by simp)
    have ends : ∀ t, MarksClear t → s.serveStop = t.taken →
        exec (.stopSequence n) s = .next (t.reply s.link.line.isNone (okReply n 0x23 [])) :=
      fun t clear serve => request_answered (r := .stopSequence) l test (by simp)
        (serve.trans (State.taken_of_marksClear clear))
    intro ended
    refine ⟨fun idle => ?idle, fun winding => ?winding, fun st out => ?atOnce,
      fun k g st out owner pending => ?withdrawn, fun st out running => ?running⟩
    case idle => exact request_served (r := .stopSequence) l test (by simp) (State.serveStop_of_idle idle) rfl
    case winding =>
      exact request_served (r := .stopSequence) l test (by simp)
        ((State.serveStop_of_windingDown winding).trans (State.taken_of_marksClear m)) rfl
    case atOnce =>
      refine ends (ended s) m ?_
      rw [State.serveStop_of_active (st.imp_right .inr), State.windDown_of_empty _ _ _ out]
    case withdrawn =>
      refine ends (ended (s.rewritten k Slot.empty)) m ?_
      rw [State.serveStop_of_active (.inr (.inl st)), State.windDown_of_pending _ _ _ out owner pending]
    case running =>
      have serve := State.serveStop_of_active (.inr (.inl st))
      rw [State.windDown_of_running _ _ _ out running] at serve
      exact request_served (r := .stopSequence) l test (by simp)
        (serve.trans (State.taken_of_marksClear (s := s.setRunner _) m)) rfl
  case interfered =>
    have test : s.modeTest (.withdrawOrder k.val) = none := State.modeTest_of_anyMode mode rfl (by simp)
    have other : (s.slot k).state ≠ .free ∧ (s.slot k).state ≠ .running := by
      obtain e | e := held <;> rw [e] <;> simp
    have serve := State.serveWithdraw_taken other.1 other.2
    rw [State.withdrawOrder_of_last owner held step out] at serve
    exact request_answered l test (by simp) (serve.trans (State.taken_of_marksClear m))

end Sys2Proof.Proofs
end

section
/-! The runner's posting attempt: what it finds, and what it writes (R70, R173 to R175, R179). -/

namespace Sys2Proof.Machine

open Sys2Proof.Safety

variable {s : State} {d : SequenceDef} {i : StepNo}

/-! ### The FREE slots of the window (R170, R175) -/

theorem allSlots_nodup : allSlots.Nodup := by decide

/-- The search from the pointer up and round finds each FREE slot of the window once (R175). -/
theorem State.freeFrom_perm (s : State) (d : SequenceDef) (p : SlotNo) :
    (s.freeFrom d p).Perm (d.window.filter fun k => (s.slot k).state == .free) := by
  have below : (d.window.filter fun k => k < p) = d.window.filter fun k => !decide (p ≤ k) :=
    List.filter_congr fun k _ => by simp [← decide_not]
  unfold State.freeFrom
  rw [below]
  exact (List.filter_append_perm _ _).filter _

theorem State.freeFrom_nodup (s : State) (d : SequenceDef) (p : SlotNo) : (s.freeFrom d p).Nodup :=
  (s.freeFrom_perm d p).nodup_iff.2 ((allSlots_nodup.filter _).filter _)

theorem State.length_freeFrom_le (s : State) (d : SequenceDef) (p : SlotNo) :
    (s.freeFrom d p).length ≤ d.window.length := by
  rw [(s.freeFrom_perm d p).length_eq]
  exact List.length_filter_le _ _

/-- From the first slot of the window up the search goes in number order (R172, R175). -/
theorem State.freeFrom_windowFirst (s : State) (d : SequenceDef) :
    s.freeFrom d d.windowFirst = d.window.filter fun k => (s.slot k).state == .free := by
  have first : ∀ k ∈ d.window, d.windowFirst ≤ k := by
    intro k hk
    have holds := (List.mem_filter.1 hk).2
    simp only [SequenceDef.holds, Bool.and_eq_true, decide_eq_true_eq] at holds
    exact holds.1
  have up : (d.window.filter fun k => d.windowFirst ≤ k) = d.window :=
    List.filter_eq_self.2 fun k hk => decide_eq_true (first k hk)
  have round : (d.window.filter fun k => k < d.windowFirst) = [] :=
    List.filter_eq_nil_iff.2 fun k hk => by simpa using first k hk
  rw [State.freeFrom, up, round, List.append_nil]

/-! ### The orders of a step (R70, R175) -/

/-- The slots of `l` each with the order of its cell, owner SEQUENCE, and unlocked (R50, R70). -/
def State.posted (s : State) (d : SequenceDef) (i : StepNo) (l : List ((GateNo × Int) × SlotNo)) : State :=
  l.foldl (fun t p => t.rewritten p.2 (Slot.written (d.order i p.1) .sequence)) s

/-- The order of a cell has no trigger, so it is PENDING as it is written, and opens a round (R50, R70). -/
theorem State.writeOrder_of_cell (s : State) (k : SlotNo) (c : GateNo × Int) :
    s.writeOrder k (d.order i c) .sequence = (s.rewritten k (Slot.written (d.order i c) .sequence)).openRound :=
  congrArg State.openRound (s.dropLock_setSlot k _)

theorem State.foldl_writeOrder_openRound (l : List ((GateNo × Int) × SlotNo)) (s : State) :
    l.foldl (fun t p => t.writeOrder p.2 (d.order i p.1) .sequence) s.openRound = (s.posted d i l).openRound := by
  induction l generalizing s with
  | nil => rfl
  | cons p l ih =>
    rw [List.foldl_cons, State.writeOrder_of_cell]
    exact ih (s.rewritten p.2 _)

/-- The orders of a step open one round (R70, R78). -/
theorem State.foldl_writeOrder {l : List ((GateNo × Int) × SlotNo)} (ne : l ≠ []) (s : State) :
    l.foldl (fun t p => t.writeOrder p.2 (d.order i p.1) .sequence) s = (s.posted d i l).openRound := by
  cases l with
  | nil => exact absurd rfl ne
  | cons p l =>
    rw [List.foldl_cons, State.writeOrder_of_cell, State.foldl_writeOrder_openRound]
    rfl

/-- The orders change slots and lock alone. -/
theorem State.proj_posted {α : Type} (proj : State → α) (same : ∀ t k r, proj (State.rewritten t k r) = proj t)
    (l : List ((GateNo × Int) × SlotNo)) (s : State) : proj (s.posted d i l) = proj s := by
  induction l generalizing s with
  | nil => rfl
  | cons p l ih => exact (ih _).trans (same _ _ _)

theorem State.slot_posted_of_not_mem {l : List ((GateNo × Int) × SlotNo)} {k : SlotNo} (h : k ∉ l.map Prod.snd)
    (s : State) : (s.posted d i l).slot k = s.slot k := by
  induction l generalizing s with
  | nil => rfl
  | cons p l ih =>
    obtain ⟨ne, rest⟩ := not_or.1 (List.mem_cons.not.1 h)
    exact (ih rest _).trans ((s.slot_rewritten _ _ _).trans (if_neg (Ne.symm ne)))

theorem State.slot_posted_of_mem {l : List ((GateNo × Int) × SlotNo)} (once : (l.map Prod.snd).Nodup)
    {p : (GateNo × Int) × SlotNo} (h : p ∈ l) (s : State) :
    (s.posted d i l).slot p.2 = Slot.written (d.order i p.1) .sequence := by
  induction l generalizing s with
  | nil => cases h
  | cons q l ih =>
    obtain ⟨fresh, once⟩ := List.nodup_cons.1 once
    obtain rfl | h := List.mem_cons.1 h
    · exact (State.slot_posted_of_not_mem fresh _).trans ((s.slot_rewritten _ _ _).trans (if_pos rfl))
    · exact ih once h _

/-- The second members of a zip are the first ones of its second list. -/
theorem map_snd_zip_sublist {α β : Type} (l : List α) (m : List β) : ((l.zip m).map Prod.snd).Sublist m := by
  induction l generalizing m with
  | nil => exact List.nil_sublist m
  | cons x l ih =>
    cases m with
    | nil => exact List.nil_sublist _
    | cons y m => exact (ih m).cons_cons y

/-! ### The step posted (R175) -/

/-- The FREE slots that an attempt finds, from the runner's pointer up (R175). -/
def State.found (s : State) (d : SequenceDef) : List SlotNo := s.freeFrom d (s.runner.pointer.getD d.windowFirst)

/-- The runner in STEP with the orders of `l` outstanding, its pointer behind the last of them (R171, R175). -/
def Runner.stepping (r : Runner) (d : SequenceDef) (l : List ((GateNo × Int) × SlotNo)) : Runner :=
  { r with state := .step, outstanding := l.map fun p => (p.2, p.1.1), posted := some l.length,
           pointer := (l.getLast?.map fun p => d.after p.2).or r.pointer, attemptsDue := 0 }

/-- The cells of step `i` posted on the slots found, in their order (R70, R175). -/
def State.stepPosted (s : State) (d : SequenceDef) (i : StepNo) : State :=
  (s.posted d i ((s.stepCells i).zip (s.found d))).setRunner
    (s.runner.stepping d ((s.stepCells i).zip (s.found d)))

/-- Posting a step is writing its orders, and the round that they open (R70, R175). -/
theorem State.postStep_eq (ne : (s.stepCells i).zip (s.found d) ≠ []) :
    s.postStep d i (s.stepCells i) (s.found d) = (s.stepPosted d i).openRound := by
  unfold State.stepPosted State.postStep
  generalize (s.stepCells i).zip (s.found d) = l at ne
  have runner : (s.posted d i l).openRound.runner = s.runner :=
    State.proj_posted State.runner (fun _ _ _ => rfl) l s
  simp only [State.foldl_writeOrder ne, State.modRunner, runner, Runner.stepping]
  cases l.getLast? with
  | none => rfl
  | some p => rfl

/-- Posting a step leaves everything but slots, lock and runner. -/
theorem State.proj_stepPosted {α : Type} (proj : State → α)
    (slots : ∀ t k r, proj (State.rewritten t k r) = proj t) (runner : ∀ t r, proj (State.setRunner t r) = proj t)
    (s : State) (d : SequenceDef) (i : StepNo) : proj (s.stepPosted d i) = proj s :=
  (runner _ _).trans (State.proj_posted proj slots _ s)

/-- State `t` has the orders of `l` for step `i` where `s` had FREE slots; gates, stage table, line and the other slots
are those of `s`. -/
structure PostedFrom (s t : State) (d : SequenceDef) (i : StepNo) (l : List ((GateNo × Int) × SlotNo)) : Prop where
  gates : t.gates = s.gates
  stage : t.stage = s.stage
  line : t.link.line = s.link.line
  slots : ∀ p ∈ l, t.slot p.2 = Slot.written (d.order i p.1) .sequence
  others : ∀ k, k ∉ l.map Prod.snd → t.slot k = s.slot k

theorem State.postedFrom_stepPosted {l : List ((GateNo × Int) × SlotNo)}
    (pairs : (s.stepCells i).zip (s.found d) = l) :
    PostedFrom s (s.stepPosted d i) d i l := by
  have keeps := fun {α : Type} (proj : State → α) slots runner => s.proj_stepPosted proj slots runner d i
  have once : (l.map Prod.snd).Nodup := by
    rw [← pairs]
    exact (map_snd_zip_sublist _ _).nodup (s.freeFrom_nodup d _)
  refine ⟨keeps State.gates (fun _ _ _ => rfl) fun _ _ => rfl, keeps State.stage (fun _ _ _ => rfl) fun _ _ => rfl,
    keeps (fun t => t.link.line) (fun _ _ _ => rfl) fun _ _ => rfl, fun p hp => ?_, fun k hk => ?_⟩
  all_goals rw [State.stepPosted, State.slot_setRunner, pairs]
  · exact State.slot_posted_of_mem once hp s
  · exact State.slot_posted_of_not_mem hk s

/-! ### One attempt (R173, R174) -/

/-- The runner attempts to post step `i` of definition `d`. -/
structure Attempting (s : State) (d : SequenceDef) (i : StepNo) : Prop where
  definition : s.definition = some d
  step : s.runner.step = some i

/-- The cells of step `i` fit into the window and pass their gates' limits, and too few slots are FREE (R173, R174). -/
structure Waits (s : State) (d : SequenceDef) (i : StepNo) : Prop where
  cells : s.stepCells i ≠ []
  fits : (s.stepCells i).length ≤ d.window.length
  sound : (s.stepCells i).any (s.cellFails d) = false
  short : (s.found d).length < (s.stepCells i).length

/-- The cells of step `i` pass their gates' limits and have FREE slots (R173, R174). -/
structure Posts (s : State) (d : SequenceDef) (i : StepNo) : Prop where
  cells : s.stepCells i ≠ []
  sound : (s.stepCells i).any (s.cellFails d) = false
  room : (s.stepCells i).length ≤ (s.found d).length

theorem Posts.length_pairs (p : Posts s d i) :
    ((s.stepCells i).zip (s.found d)).length = (s.stepCells i).length := by
  rw [List.length_zip, Nat.min_eq_left p.room]

theorem Posts.pairs (p : Posts s d i) : (s.stepCells i).zip (s.found d) ≠ [] := by
  rw [← List.length_pos_iff, p.length_pairs]
  exact List.length_pos_iff.2 p.cells

/-- The runner in STEP, with as many orders posted as the step has cells, and its pointer behind the last (R175). -/
theorem Posts.runner (p : Posts s d i) {l : List ((GateNo × Int) × SlotNo)}
    (pairs : (s.stepCells i).zip (s.found d) = l) :
    (s.stepPosted d i).runner =
      { s.runner with state := .step, outstanding := l.map fun q => (q.2, q.1.1),
                      posted := some (s.stepCells i).length, pointer := l.getLast?.map fun q => d.after q.2,
                      attemptsDue := 0 } := by
  have ne := p.pairs
  have length := p.length_pairs
  rw [pairs] at ne length
  rw [State.stepPosted, State.runner_setRunner, pairs, Runner.stepping, length, List.getLast?_eq_some_getLast ne,
    Option.map_some, Option.some_or]

/-- The tests of a posting attempt in their order (R173, R174, R177). -/
theorem Attempting.once (h : Attempting s d i) :
    s.attemptOnce =
      if s.stepCells i = [] then s.stepDone i
      else if d.window.length < (s.stepCells i).length then s.failStep .windowTooSmall none
      else if (s.stepCells i).any (s.cellFails d) = true then s.failStep .cellRefused none
      else if (s.found d).length < (s.stepCells i).length then s
      else s.postStep d i (s.stepCells i) (s.found d) := by
  simp only [State.attemptOnce, h.definition, h.step]
  rfl

/-- An attempt that does not leave the runner in DWELL is all that it does in its event (R173, R177). -/
theorem State.attempt_of_once {t : State} (once : s.attemptOnce = t) (st : t.runner.state ≠ .dwell) :
    s.attempt = t := by
  have stays : ∀ n, State.runOn n t = t := by
    intro n
    cases n with
    | zero => rfl
    | succ n => exact if_neg fun h => st h.1
  unfold State.attempt
  simp only [once, stays]

/-- With too few slots FREE the runner waits (R173). -/
theorem Attempting.attempt_of_waits (h : Attempting s d i) (w : Waits s d i) (st : s.runner.state ≠ .dwell) :
    s.attempt = s := by
  refine State.attempt_of_once ?_ st
  rw [h.once, if_neg w.cells, if_neg (Nat.not_lt.2 w.fits), if_neg (ne_true_of_eq_false w.sound), if_pos w.short]

/-- With enough slots FREE the step is posted (R173, R175). -/
theorem Attempting.attempt_of_posts (h : Attempting s d i) (p : Posts s d i) :
    s.attempt = (s.stepPosted d i).openRound := by
  have fits : (s.stepCells i).length ≤ d.window.length := p.room.trans (s.length_freeFrom_le d _)
  refine State.attempt_of_once ?_ (by simp [State.stepPosted, Runner.stepping, State.openRound])
  rw [h.once, if_neg p.cells, if_neg (Nat.not_lt.2 fits), if_neg (ne_true_of_eq_false p.sound),
    if_neg (Nat.not_lt.2 p.room), State.postStep_eq p.pairs]

/-- Outside RUN the round of a posted step grants nothing (R78, R79). -/
theorem Attempting.finish_of_posts (h : Attempting s d i) (p : Posts s d i) (run : s.mode ≠ .run) (m : MarksClear s) :
    s.attempt.finish = s.stepPosted d i := by
  have mode : (s.stepPosted d i).mode = s.mode :=
    s.proj_stepPosted State.mode (fun _ _ _ => rfl) (fun _ _ => rfl) d i
  have marks : (s.stepPosted d i).marks = s.marks :=
    s.proj_stepPosted State.marks (fun _ _ _ => rfl) (fun _ _ => rfl) d i
  rw [h.attempt_of_posts p]
  exact State.finish_openRound_of_not_run (by rwa [mode]) (marks.trans m)

/-- An attempt that fails with no slot outstanding ends the sequence FAILED (R174, R179, R180). -/
theorem Attempting.attempt_of_fail (h : Attempting s d i) {c : FailCause} (once : s.attemptOnce = s.failStep c none)
    (out : s.runner.outstanding = []) :
    s.attempt = (s.setRunner .idle).notify
      (.sequenceEnd .failed i (s.runner.pass.getD 0) (some c) none s.clock) := by
  refine State.attempt_of_once (once.trans ?_) (by simp [State.notify, Runner.idle])
  rw [State.failStep, State.windDown_of_empty _ _ _ out, h.step, Option.getD_some]

theorem Attempting.once_of_tooSmall (h : Attempting s d i) (small : d.window.length < (s.stepCells i).length) :
    s.attemptOnce = s.failStep .windowTooSmall none := by
  have cells : s.stepCells i ≠ [] := List.ne_nil_of_length_pos (Nat.zero_lt_of_lt small)
  rw [h.once, if_neg cells, if_pos small]

theorem Attempting.once_of_refused (h : Attempting s d i) (cells : s.stepCells i ≠ [])
    (fits : (s.stepCells i).length ≤ d.window.length) (fails : (s.stepCells i).any (s.cellFails d) = true) :
    s.attemptOnce = s.failStep .cellRefused none := by
  rw [h.once, if_neg cells, if_neg (Nat.not_lt.2 fits), if_pos fails]

end Sys2Proof.Machine
end

section
/-! DEFINE_SEQUENCE and START_SEQUENCE (R170, R172). -/

namespace Sys2Proof.Machine

open Sys2Proof.Safety

variable {s : State} {d : SequenceDef}

/-- The definition that checked fields stand for (R170). -/
def sequenceOf (f : RawSequence) (a b : StepNo) (c e : SlotNo) : SequenceDef :=
  { firstStep := a, lastStep := b, repetitions := f.repetitions, windowFirst := c, windowLast := e,
    priority := f.priority, speed := (speedOf f.speed).getD .slow, rule := (ruleOf f.rule).getD .clamp }

/-- DEFINE_SEQUENCE with its fields in range (R170). -/
theorem State.serveDefine_of_pass {f : RawSequence} {a b : StepNo} {c e : SlotNo}
    (pass : firstBad (sequenceChecks f) = none) (first : f.firstStep = a.val) (last : f.lastStep = b.val)
    (low : f.windowFirst = c.val) (high : f.windowLast = e.val) :
    s.serveDefine f =
      if s.runner.state ≠ .idle then s.refuse .sequenceActive
      else ({ s with definition := some (sequenceOf f a b c e) } : State).taken := by
  rw [State.serveDefine, State.checked_pass s _ pass]
  simp only [first, last, low, high, stepOf_val, slotOf_val]
  rfl

/-- START_SEQUENCE is taken in CONFIG, in RUN, and in a HOLD drain (R192). -/
theorem State.modeTest_start
    (mode : s.mode = .config ∨ s.mode = .run ∨ s.mode = .draining ∧ s.flavour = some .hold) :
    s.modeTest .startSequence = none := by
  unfold State.modeTest
  obtain h | h | ⟨h, hold⟩ := mode
  · simp [h]
  · simp [h, configOnly]
  · simp [h, hold, configOnly]

/-- The runner in POSTING for the first step of the first pass, its pointer at the first slot of the window (R172). -/
def State.started (s : State) (d : SequenceDef) : State :=
  s.setRunner { Runner.idle.toPosting d.firstStep 1 with pointer := some d.windowFirst }

theorem Attempting.started (h : s.definition = some d) : Attempting (s.started d) d d.firstStep := ⟨h, rfl⟩

theorem State.found_started (s : State) (d : SequenceDef) :
    (s.started d).found d = d.window.filter fun k => (s.slot k).state == .free :=
  (s.started d).freeFrom_windowFirst d

/-- START_SEQUENCE with a definition and an IDLE runner makes the first posting attempt (R172, R173). -/
theorem State.serveStart_of_idle (h : s.definition = some d) (st : s.runner.state = .idle) :
    s.serveStart = (s.started d).attempt.taken := by
  simp only [State.serveStart, h, st, if_true]
  rfl

theorem State.serveStart_of_active (h : s.definition = some d) (st : s.runner.state ≠ .idle) :
    s.serveStart = s.refuse .sequenceActive := by
  simp only [State.serveStart, h, st, if_false]

theorem State.serveStart_of_none (h : s.definition = none) : s.serveStart = s.refuse .noSequence := by
  simp only [State.serveStart, h]

end Sys2Proof.Machine

namespace Sys2Proof.Proofs

open Sys2Proof.Machine Sys2Proof.Safety

/-- Settles O49: DEFINE_SEQUENCE by the runner's state; START_SEQUENCE by the outcome of its first posting attempt. -/
theorem sequenceDefinedAndStarted : Obligations.SequenceDefinedAndStarted := by
  unfold Obligations.SequenceDefinedAndStarted
  refine ⟨fun n a b c d reps prio sp ru v w s l m mode steps slots lo hi priority speed rule => ?define,
    fun n s l m mode => ?start⟩
  case define =>
    intro def' i
    have pass : firstBad (sequenceChecks ⟨a.val, b.val, reps, c.val, d.val, prio, sp, ru⟩) = none := by
      simp [sequenceChecks, firstBad, inNat_fin, inNat_from steps, inNat_from slots, inNat_eq_true, lo, hi, priority,
        speed, rule]
    have serve := State.serveDefine_of_pass (s := s) pass rfl rfl rfl rfl
    have test : ∀ f, s.modeTest (.defineSequence f) = none := fun f => State.modeTest_of_anyMode mode rfl (by simp)
    refine ⟨fun idle => ?idle, fun active => ?active⟩
    case idle =>
      rw [if_neg (not_not.2 idle), sequenceOf, speed, rule] at serve
      exact request_served l (test _) (by simp)
        (serve.trans (State.taken_of_marksClear (s := { s with definition := some def' }) m)) rfl
    case active =>
      rw [if_pos active] at serve
      exact request_served l (test _) (by simp) serve rfl
  case start =>
    have test := State.modeTest_start mode
    refine ⟨fun none => ?noSequence, fun d definition active => ?active, fun d definition idle => ?attempt⟩
    case noSequence =>
      exact request_served (r := .startSequence) l test (by simp) (State.serveStart_of_none none) rfl
    case active =>
      exact request_served (r := .startSequence) l test (by simp) (State.serveStart_of_active definition active) rfl
    case attempt =>
      intro cells free started ends
      have first := Attempting.started definition
      have serve := State.serveStart_of_idle definition idle
      have found := s.found_started d
      have fails : ∀ {c}, (s.started d).attemptOnce = (s.started d).failStep c none → ends c := by
        intro c once
        have serve := serve.trans (congrArg State.taken (first.attempt_of_fail once rfl))
        exact request_answered (r := .startSequence) l test (by simp) (serve.trans (State.taken_of_marksClear m))
      refine ⟨fun small => ?tooSmall, fun some fits refused => ?refused, fun some fits sound short => ?waits,
        fun some sound room run unlocked => ?posts⟩
      case tooSmall => exact fails (first.once_of_tooSmall small)
      case refused => exact fails (first.once_of_refused some fits refused)
      case waits =>
        have waits : Waits (s.started d) d d.firstStep := ⟨some, fits, sound, by rw [found]; exact short⟩
        rw [first.attempt_of_waits waits (by simp [State.started, Runner.toPosting])] at serve
        exact request_served (r := .startSequence) l test (by simp)
          (serve.trans (State.taken_of_marksClear (s := s.started d) m)) rfl
      case posts =>
        have posts : Posts (s.started d) d d.firstStep := ⟨some, sound, by rw [found]; exact room⟩
        have ended := first.finish_of_posts posts run m
        have pairs : ((s.started d).stepCells d.firstStep).zip ((s.started d).found d) = cells.zip free := by
          rw [found]
          rfl
        have posted := State.postedFrom_stepPosted pairs
        exact ⟨((s.started d).stepPosted d d.firstStep).placeReply (okReply n 0x22 []),
          request_served (r := .startSequence) (a := .ok []) l test (by simp)
            (serve.trans (State.taken_of_finish ended)) posted.line,
          posted.gates, posted.stage, posts.runner pairs, posted.slots, posted.others⟩

end Sys2Proof.Proofs
end

section
/-! The runner's own events: a posting attempt that is due, and the end of the dwell (R173, R178). -/

namespace Sys2Proof.Machine

open Sys2Proof.Safety

variable {s : State} {d : SequenceDef} {i j : StepNo} {p q : Nat}

/-! ### POSTING_ATTEMPT (R173) -/

theorem exec_postingAttempt (released : s.resetHeld = false) : exec .postingAttempt s = .next s.dueAttempt.finish :=
  event_released released State.dueAttempt

theorem State.dueAttempt_of_none (h : s.runner.state ≠ .posting ∨ s.runner.attemptsDue = 0) : s.dueAttempt = s :=
  if_neg fun ⟨posting, due⟩ => h.elim (· posting) due.ne'

/-- The attempt that is taken is no longer due; `n` more are (R173; log 15). -/
def State.attemptTaken (s : State) (n : Nat) : State := s.setRunner { s.runner with attemptsDue := n }

/-- An attempt that is due is made (R173). -/
theorem State.dueAttempt_of_due {m : Nat} (st : s.runner.state = .posting) (due : s.runner.attemptsDue = m + 1) :
    s.dueAttempt = (s.attemptTaken m).attempt := by
  unfold State.dueAttempt
  rw [if_pos ⟨st, by omega⟩, State.modRunner, due]
  rfl

/-! ### DWELL_TIMER_EXPIRY (R178) -/

/-- The step and the pass after step `i` of pass `p`, if the sequence has any left (R178). -/
def SequenceDef.following (d : SequenceDef) (i : StepNo) (p : Nat) : Option (StepNo × Nat) :=
  if i < d.lastStep then some (i + 1, p) else if p < d.repetitions then some (d.firstStep, p + 1) else none

theorem exec_dwellTimerExpiry (released : s.resetHeld = false) : exec .dwellTimerExpiry s = .next s.dwellEvent.finish :=
  event_released released State.dwellEvent

theorem State.dwellEvent_of_none (h : s.runner.state ≠ .dwell ∨ s.runner.dwell = none) : s.dwellEvent = s :=
  if_neg fun ⟨dwelling, runs⟩ => h.elim (· dwelling) fun stopped => by simp [stopped] at runs

section

variable (h : Attempting s d i) (pass : s.runner.pass = some p)

include h pass

/-- After the last step of the last pass the sequence ends COMPLETE (R178). -/
theorem State.dwellNext_of_last (last : d.following i p = none) : s.dwellNext = s.endSequence .complete := by
  unfold SequenceDef.following at last
  simp only [State.dwellNext, h.definition, h.step, pass]
  split at last
  · cases last
  · next step =>
    split at last
    · cases last
    · next rep => rw [if_neg step, if_neg rep]

/-- The runner goes to the next step, or to the first of the next pass (R178). -/
theorem State.dwellNext_of_following (next : d.following i p = some (j, q)) :
    s.dwellNext = s.setRunner (s.runner.toPosting j q) := by
  unfold SequenceDef.following at next
  simp only [State.dwellNext, h.definition, h.step, pass]
  split at next
  · next step =>
    cases next
    exact if_pos step
  · next step =>
    split at next
    · next rep =>
      cases next
      exact (if_neg step).trans (if_pos rep)
    · cases next

/-- The dwell of the last step has passed (R178). -/
theorem State.dwellEvent_of_last (st : s.runner.state = .dwell) (runs : s.runner.dwell.isSome = true)
    (last : d.following i p = none) : s.dwellEvent = s.endSequence .complete := by
  have ended : (s.endSequence .complete).runner.state ≠ .posting := by
    simp [State.endSequence, State.notify, Runner.idle]
  unfold State.dwellEvent State.dwellExpired
  rw [if_pos ⟨st, runs⟩, State.dwellNext_of_last h pass last]
  exact if_neg ended

/-- The dwell of another step has passed, and the next one's posting attempt is made in the same event (R173, R178). -/
theorem State.dwellEvent_of_following (st : s.runner.state = .dwell) (runs : s.runner.dwell.isSome = true)
    (next : d.following i p = some (j, q)) : s.dwellEvent = (s.setRunner (s.runner.toPosting j q)).attempt := by
  unfold State.dwellEvent State.dwellExpired
  rw [if_pos ⟨st, runs⟩, State.dwellNext_of_following h pass next]
  exact if_pos rfl

end

end Sys2Proof.Machine

namespace Sys2Proof.Proofs

open Sys2Proof.Machine Sys2Proof.Safety

/-- Settles O52: the attempt by what it finds, the end of the dwell by what the sequence has left. -/
theorem runnerPostsAndDwells : Obligations.RunnerPostsAndDwells := by
  unfold Obligations.RunnerPostsAndDwells
  intro d i p s released m definition step pass waits pairs after
  have at_step : Attempting s d i := ⟨definition, step⟩
  refine ⟨fun none => ?notDue, fun n st due waits => ?waits, fun n st due some sound room run => ?posts,
    fun none => ?noDwell, fun st runs last => ?complete, fun j q st runs next waits => ?next⟩
  case notDue => rw [exec_postingAttempt released, State.dueAttempt_of_none none, State.finish_of_marksClear m]
  case waits =>
    obtain ⟨some, fits, sound, short⟩ := waits
    have now : Attempting (s.attemptTaken n) d i := ⟨definition, step⟩
    rw [exec_postingAttempt released, State.dueAttempt_of_due st due,
      now.attempt_of_waits ⟨some, fits, sound, short⟩ (by simp [State.attemptTaken, st])]
    exact congrArg _ (State.finish_of_marksClear (s := s.attemptTaken n) m)
  case posts =>
    have now : Attempting (s.attemptTaken n) d i := ⟨definition, step⟩
    have posts : Posts (s.attemptTaken n) d i :=
      ⟨some, sound, room.trans (List.length_zip.trans_le (Nat.min_le_right _ _))⟩
    rw [exec_postingAttempt released, State.dueAttempt_of_due st due, now.finish_of_posts posts run m]
    have posted : PostedFrom (s.attemptTaken n) ((s.attemptTaken n).stepPosted d i) d i pairs :=
      State.postedFrom_stepPosted rfl
    exact ⟨(s.attemptTaken n).stepPosted d i, rfl, posted.gates, rfl, congrArg _ posts.length_pairs, rfl,
      posted.slots, posted.others⟩
  case noDwell => rw [exec_dwellTimerExpiry released, State.dwellEvent_of_none none, State.finish_of_marksClear m]
  case complete =>
    rw [exec_dwellTimerExpiry released, State.dwellEvent_of_last at_step pass st runs last, State.endSequence,
      step, pass]
    exact congrArg _ (State.finish_of_marksClear (by exact m))
  case next =>
    obtain ⟨some, fits, sound, short⟩ := waits
    have now : Attempting (s.setRunner (s.runner.toPosting j q)) d j := ⟨definition, rfl⟩
    rw [exec_dwellTimerExpiry released, State.dwellEvent_of_following at_step pass st runs next,
      now.attempt_of_waits ⟨some, fits, sound, short⟩ (by simp [Runner.toPosting])]
    exact congrArg _ (State.finish_of_marksClear (s := s.setRunner _) m)

end Sys2Proof.Proofs
end

section
/-! The resets and the reset line (R185), the weir clock (R193), and the admission of requests (R192, R199). -/

namespace Sys2Proof.Machine

open Sys2Proof.Safety

variable {s : State}

/-! ### Cold reset (R185) -/

/-- A notice whose kind is enabled starts at once on an idle port with nothing waiting (R201, R202). -/
theorem Link.take_of_empty {l : Link} {n : Notice} (enabled : l.enables.get n.kindIndex = true) (line : l.line = none)
    (replies : l.replies = []) (notices : l.notices = []) : l.take n = { l with line := some (.notice n) } := by
  simp [Link.take, Link.decideIfIdle, Link.decide, enabled, line, replies, notices]

/-- Cold reset: the cold-reset values with the MODE notice on the line; the input levels, the queue of commands and the
count of free choices stay (log 19). -/
theorem State.coldReset_eq (s : State) (strap : LinkRate) :
    s.coldReset strap = { State.coldValues strap s.inputs with
      freeCount := s.freeCount, pending := s.pending,
      link := { Link.cold strap with line := some (.notice (.mode .config none none .coldReset 0)) } } := by
  have enabled : (Link.cold strap).enables.get (Notice.mode .config none none .coldReset 0).kindIndex = true := rfl
  have taken := Link.take_of_empty enabled rfl rfl rfl
  unfold State.coldReset State.notify
  exact congrArg (State.setLink _) taken

theorem State.gate_coldReset (s : State) (strap : LinkRate) (g : GateNo) : (s.coldReset strap).gate g = GateRec.cold :=
  Vector.getElem_replicate g.isLt

theorem State.unit_coldReset (s : State) (strap : LinkRate) (u : UnitNo) : (s.coldReset strap).unit u = PowerUnit.cold :=
  Vector.getElem_replicate u.isLt

/-- The state after reset is what a cold reset with a low strap leaves of the assumed input levels (logs 5 and 6). -/
theorem State.reset_eq_coldReset : State.reset = (State.coldValues .low .assumed).coldReset .low := by
  rw [State.coldReset_eq]
  rfl

/-! ### The reset line (R185) -/

theorem State.gate_assertReset (s : State) (g : GateNo) : s.assertReset.gate g = (s.gate g).held := Vector.getElem_ofFn _

theorem State.unit_assertReset (s : State) (u : UnitNo) : s.assertReset.unit u = (s.unit u).held := Vector.getElem_ofFn _

/-- While the reset line is held every end of a gate has its cold-reset outputs. -/
theorem GateRec.hoist_held (r : GateRec) (e : HoistEnd) :
    (r.held.hoist e).valve = .closed ∧ (r.held.hoist e).pinCmd = .engage := by
  cases e <;> exact ⟨rfl, rfl⟩

/-- A command that is ignored while the reset line is held. -/
theorem next_of_held {t : State} (held : s.resetHeld = true) :
    (Host.Outcome.next (if s.resetHeld then s else t) : Result) = .next s := by rw [if_pos held]

/-- An input event while the reset line is held writes the input levels alone (log 4). -/
theorem inputEvent_of_held {s' u : State} {p : Prop} [Decidable p] (held : s'.resetHeld = true)
    (levels : s' = { s with inputs := s'.inputs }) :
    ∃ t, (Host.Outcome.next (if p then s else if s'.resetHeld then s' else u) : Result) = .next t ∧
      t = { s with inputs := t.inputs } := by
  refine ⟨_, rfl, ?_⟩
  rw [if_pos held]
  split
  · rfl
  · exact levels

/-! ### The admission of requests (R192, R199) -/

theorem State.modeTest_of_resetting (h : s.mode = .resetting) {r : Request} (ne : r ≠ .status) :
    s.modeTest r = some .resetting := by
  simp only [State.modeTest, ne, if_false, h]

/-- Outside CONFIG and RESETTING the six configuration requests are refused (R192). -/
theorem State.modeTest_of_configOnly (h : s.mode = .run ∨ s.mode = .draining) {r : Request}
    (c : configOnly r = true) : s.modeTest r = some .wrongMode := by
  have ne : r ≠ .status := fun e => by simp [e, configOnly] at c
  obtain h | h := h <;> simp [State.modeTest, ne, h, c]

/-- RUN, HOLD and STOP_ALL carry the mode bytes in a refusal too (R186). -/
theorem State.modeRefusal_eq (s : State) (r : Request) (st : Status) :
    s.modeRefusal r st =
      (⟨st, 0, if r = .run ∨ r = .hold ∨ r = .stopAll then s.encMode else []⟩, s) := by
  unfold State.modeRefusal
  split
  · rfl
  · rfl
  · rfl
  · next run hold stop =>
    rw [if_neg (not_or.2 ⟨run, not_or.2 ⟨hold, stop⟩⟩)]
    rfl

/-- A request that the mode test refuses leaves the state but for its reply (R192, R205). -/
theorem State.takeRequest_of_refused {r : Request} {st : Status} (room : s.link.replies.length < 2)
    (test : s.modeTest r = some st) (n : Byte) :
    s.takeRequest n r = s.placeReply
      { number := n, kind := BitVec.ofNat 8 (codeOf r), status := st, detail := 0,
        data := if r = .run ∨ r = .hold ∨ r = .stopAll then s.encMode else [] } := by
  unfold State.takeRequest State.whenRoom State.takeKnown
  simp only [test, Nat.not_le.2 room, if_false, s.modeRefusal_eq, s.reply_of_line_kept]
  rfl

end Sys2Proof.Machine

namespace Sys2Proof.Proofs

open Sys2Proof.Machine Sys2Proof.Safety

/-- Settles O2: by the state a cold reset leaves (`State.coldReset_eq`). -/
theorem coldResetGivesColdValues : Obligations.ColdResetGivesColdValues := by
  unfold Obligations.ColdResetGivesColdValues
  intro strap s
  have link := congrArg State.link (s.coldReset_eq strap)
  exact ⟨s.coldReset strap, rfl, rfl, rfl, rfl, rfl, s.slot_coldReset strap, rfl, rfl, s.unit_coldReset strap, rfl,
    s.gate_coldReset strap, rfl, rfl, s.queue_coldReset strap, rfl, rfl, rfl, link, rfl, rfl, rfl, rfl⟩

/-- Settles O3: the state after reset is left by a cold reset, whose records are the cold ones. -/
theorem resetStateMeetsLaws : Obligations.ResetStateMeetsLaws := by
  unfold Obligations.ResetStateMeetsLaws
  have cold := State.reset_eq_coldReset
  have queue : ∀ g, State.reset.queue g = Queue.cold := fun g => cold ▸ State.queue_coldReset _ _ g
  have gate : ∀ g, State.reset.gate g = GateRec.cold := fun g => cold ▸ State.gate_coldReset _ _ g
  refine ⟨⟨Nat.zero_le _, Nat.zero_le _⟩, State.locked_none rfl, fun k _ => cold ▸ State.slot_coldReset _ _ k,
    cold ▸ StarterLawful.coldReset _ _, cold ▸ State.unitsLawful_coldReset _ _, fun g => ?fit, fun g h _ some => ?apart,
    Nat.zero_le _, rfl, cold ▸ fun _ => GatesObey.coldReset outputsRecordLaw _, fun g _ => ?clear, rfl⟩
  case fit =>
    rw [queue]
    exact ⟨Nat.zero_le _, Nat.zero_le _⟩
  case apart =>
    rw [queue] at some
    exact absurd rfl some
  case clear =>
    rw [gate]
    rfl

/-- Settles O4: the assertion writes the held records; while the line is held an input event records its level at most
and every other command is ignored. -/
theorem resetLineHoldsDevice : Obligations.ResetLineHoldsDevice := by
  unfold Obligations.ResetLineHoldsDevice
  refine ⟨fun s => ⟨s.assertReset, rfl, rfl, rfl, fun g c => ?outputs, s.unit_assertReset, s.gate_assertReset, rfl⟩,
    fun i s held => ?ignored⟩
  case outputs =>
    unfold State.channelValve State.channelPinCmd
    rw [s.gate_assertReset]
    exact GateRec.hoist_held _ _
  case ignored =>
    cases i with
    | resetLineAsserted | coldReset => trivial
    | lockPinFeedback | readyChange | faultAssertion | linedUpChange => exact inputEvent_of_held held rfl
    | faultClearing u => exact ⟨s.faultClear u, rfl, rfl⟩
    | _ => exact next_of_held held

/-- Settles O5: the tick is the word's successor, and SET_CLOCK is served from the value it writes. -/
theorem clockTicksAndIsSet : Obligations.ClockTicksAndIsSet := by
  unfold Obligations.ClockTicksAndIsSet
  refine ⟨fun s released => ?tick, by decide, fun n v s l mode => ?set⟩
  case tick =>
    have ticks : ¬s.resetHeld = true := by simp [released]
    exact congrArg Host.Outcome.next (if_neg ticks)
  case set =>
    exact request_served (r := .setClock v) (s' := { s with clock := v }) l
      (State.modeTest_of_anyMode mode rfl (by simp)) (by simp) rfl rfl

/-- Settles O9: by the mode test, and by the discard with two replies waiting. -/
theorem requestsAreAdmittedByMode : Obligations.RequestsAreAdmittedByMode := by
  unfold Obligations.RequestsAreAdmittedByMode
  refine ⟨fun n r s room => ⟨fun mode ne => ?resetting, fun mode only => ?wrongMode⟩, fun n r s full => if_pos full⟩
  case resetting => exact State.takeRequest_of_refused room (State.modeTest_of_resetting mode ne) n
  case wrongMode =>
    have noBytes : ¬(r = .run ∨ r = .hold ∨ r = .stopAll) := by
      rintro (e | e | e) <;> simp [e, configOnly] at only
    rw [State.takeRequest_of_refused room (State.modeTest_of_configOnly mode only) n, if_neg noBytes]

end Sys2Proof.Proofs
end

section
/-! RUN (R78, R82, R186): what its reply and its round leave alone. -/

namespace Sys2Proof.Machine

open Sys2Proof.Safety

variable {s : State}

/-! ### The reply -/

/-- The reply of an event writes the link port and the count of free choices alone (R201; log 7). -/
theorem State.reply_frame (s : State) (idle : Bool) (r : Reply) :
    ∃ l c, s.reply idle r = { s with link := l, freeCount := c } := by
  unfold State.reply
  split
  · exact ⟨_, _, rfl⟩
  · exact ⟨_, _, rfl⟩

/-! ### What a lawful round leaves of the slots that do not wait (R56, R95) -/

theorem State.slot_returnGrant_ne {k j : SlotNo} (ne : k ≠ j) : (s.returnGrant k).slot j = s.slot j := by
  unfold State.returnGrant
  split
  · exact s.slot_setSlot_ne _ ne
  · rfl

/-- While no unit is STARTING, a lawful start queue is empty (R95). -/
theorem StarterLawful.startQueue_of_vacant (h : StarterLawful s) (vacant : s.starting = none) : s.startQueue = [] := by
  obtain ⟨_, _, _, busy⟩ := h
  by_contra waits
  obtain ⟨u, starting⟩ := busy waits
  exact State.starting_ne_none starting vacant

/-- A start request returns no grant but that of its own slot: where the starter is free, nobody is queued (R95, R97). -/
theorem StarterLawful.slot_requestStart_ne (h : StarterLawful s) {k j : SlotNo} (ne : k ≠ j) (u : UnitNo) (g : GateNo) :
    (s.requestStart u k g).slot j = s.slot j := by
  cases fault : (s.unitInput u).fault with
  | true =>
    cases starting : s.starting with
    | none =>
      rw [State.requestStart_of_fault k g fault (StarterLawful.startQueue_of_vacant h starting)]
      exact State.slot_returnGrant_ne ne
    | some v =>
      simp only [State.requestStart, starting, fault]
      exact State.slot_returnGrant_ne ne
  | false =>
    cases starting : s.starting with
    | none =>
      rw [State.requestStart_of_vacant k g fault starting]
      rfl
    | some v =>
      rw [State.requestStart_of_taken k g fault (by simp [starting])]
      rfl

/-- A grant writes no other slot (R84). -/
theorem StarterLawful.slot_grant_ne (h : StarterLawful s) {k j : SlotNo} (ne : k ≠ j) (g : GateNo) (u : UnitNo) :
    (s.grant k g u).slot j = s.slot j := by
  have granted : (s.modSlot k fun r => r.grantedBy u s.clock).slot j = s.slot j := s.slot_setSlot_ne _ ne
  refine Eq.trans ?_ granted
  unfold State.grant State.grantUnit
  split
  · exact StarterLawful.slot_requestStart_ne (s := s.modSlot k _) h ne u g
  · rfl
  · rfl

/-- The passes of a round leave every slot that is not PENDING (R79, R84, R95). -/
theorem StarterLawful.slot_passes (h : StarterLawful s) (n : Nat) {j : SlotNo} (st : (s.slot j).state ≠ .pending) :
    (State.passes n s).slot j = s.slot j := by
  induction n generalizing s with
  | zero => rfl
  | succ n ih =>
    unfold State.passes
    split
    · rfl
    · next k g u chosen =>
      have ne : k ≠ j := fun e => st (e ▸ s.pending_choice k g u chosen)
      have same := StarterLawful.slot_grant_ne h ne g u
      have lawful : StarterLawful (s.grant k g u) :=
        StarterLawful.grantUnit (s := s.modSlot k fun r => r.grantedBy u s.clock) h u k g
      rw [ih lawful (same ▸ st), same]

theorem StarterLawful.slot_takeRound (h : StarterLawful s) {j : SlotNo} (st : (s.slot j).state ≠ .pending) :
    s.takeRound.slot j = s.slot j := by
  unfold State.takeRound
  split
  · exact StarterLawful.slot_passes h 3 st
  · rfl

/-! ### RUN (R186) -/

/-- RUN is taken in CONFIG with a gate present, and in a HOLD drain (R186). -/
def State.MayRun (s : State) : Prop :=
  s.mode = .config ∧ s.anyPresent = true ∨ s.mode = .draining ∧ s.flavour = some .hold

theorem State.MayRun.modeTest (h : s.MayRun) : s.modeTest .run = none := by
  refine State.modeTest_of_anyMode ?_ rfl (by simp)
  obtain ⟨mode, _⟩ | ⟨mode, _⟩ := h <;> simp [mode]

theorem State.MayRun.serve (h : s.MayRun) : s.serve .run = State.withMode .ok s.toRun.finish := by
  obtain ⟨mode, present⟩ | ⟨mode, flavour⟩ := h
  · simp only [State.serve, State.serveRun, mode, present, if_true]
  · simp only [State.serve, State.serveRun, mode, flavour]

/-- The pool stands where each of its queues does. -/
theorem State.queues_ext {t : State} (h : ∀ g, t.queue g = s.queue g) : t.queues = s.queues :=
  Vector.ext fun i hi => h ⟨i, hi⟩

end Sys2Proof.Machine

namespace Sys2Proof.Proofs

open Sys2Proof.Machine Sys2Proof.Safety

/-- Settles O11: the round that RUN opens writes waiting slots, units and the link port alone, and nothing where no slot
waits. -/
theorem runEntersRun : Obligations.RunEntersRun := by
  unfold Obligations.RunEntersRun
  intro n s l m may
  have mayRun : s.MayRun := may
  have clear : s.marks = ⟨false, false⟩ := m
  refine ⟨fun lawful => ?granting, fun noneWaits => ?quiet⟩
  case granting =>
    have noReport : s.toRun.marks.reportDue = false := congrArg Marks.reportDue clear
    have ended : s.toRun.finish = s.toRun.takeRound := State.finish_of_no_report noReport
    have round : Touch (fun _ => False) s.toRun s.toRun.takeRound := State.touch_takeRound _
    have rounded : Rounded s.toRun s.toRun.finish := State.rounded_finish noReport
    have kept := round.kept
    obtain ⟨link, count, replied⟩ := s.toRun.finish.reply_frame s.link.line.isNone
      ((State.withMode .ok s.toRun.finish).1.reply n (BitVec.ofNat 8 (codeOf .run)))
    rw [← ended] at kept
    refine ⟨_, (request_replied l mayRun.modeTest (by simp) mayRun.serve).trans (congrArg _ replied), kept.mode,
      kept.flavour, rounded.gates, kept.clock, rounded.runner, kept.tide, kept.stage, ?_, fun k st => ?_⟩
    · refine State.queues_ext (s := s) (t := s.toRun.finish) fun g => ?_
      rw [ended]
      exact (round.others not_false).2
    · have slot : s.toRun.finish.slot k = s.slot k := by
        rw [ended]
        exact StarterLawful.slot_takeRound (s := s.toRun) lawful st
      exact slot
  case quiet =>
    have ended : s.toRun.finish = s.changeMode .run none .request :=
      State.finish_openRound_of_noneWaits (s := s.changeMode .run none .request) noneWaits m
    have serve : s.serve .run = (.ok (encU8 1 ++ [0]), s.changeMode .run none .request) :=
      mayRun.serve.trans (congrArg (State.withMode .ok) ended)
    exact request_answered l mayRun.modeTest (by simp) serve

end Sys2Proof.Proofs
end

section
/-! The end of moves and orders in a drain (R41, R60, R61, R73, R162, R187 to R189): what the operations of a drain leave of
the table and of the runner, the report that no slot is RUNNING, and the gates one by one. -/

namespace Sys2Proof.Machine

open Sys2Proof.Safety

/-! ### Runs over the gates and the table -/

/-- A run over a list brings `K` about at `x` where `J` holds until then, and the other items keep both. -/
theorem foldl_reaches {α : Type} {f : State → α → State} {J K : State → Prop} {x : α}
    (before : ∀ t y, y ≠ x → J t → J (f t y)) (here : ∀ t, J t → K (f t x)) (after : ∀ t y, y ≠ x → K t → K (f t y)) :
    ∀ {l : List α}, l.Nodup → x ∈ l → ∀ {s : State}, J s → K (l.foldl f s) := by
  have keeps : ∀ {l : List α}, x ∉ l → ∀ {t : State}, K t → K (l.foldl f t) := fun out _ k =>
    List.foldlRecOn _ f k fun t k y mem => after t y (fun e => out (e ▸ mem)) k
  intro l
  induction l with
  | nil => exact fun _ mem => absurd mem List.not_mem_nil
  | cons y l ih =>
    intro once mem s j
    obtain ⟨out, once⟩ := List.nodup_cons.1 once
    by_cases e : y = x
    · subst e
      exact keeps out (here s j)
    · exact ih once ((List.mem_cons.1 mem).resolve_left (Ne.symm e)) (before s y e j)

/-- In a run over items of which `x` alone touches gate `g`, item `x` finds the gate and the input levels as they were,
and what it leaves of the gate stands. -/
theorem State.gate_foldl {α : Type} {f : State → α → State} {m : α → GateNo → Prop}
    (touch : ∀ t y, Touch (m y) t (f t y)) {g : GateNo} {x : α} (alone : ∀ y, y ≠ x → ¬m y g) {l : List α}
    (once : l.Nodup) (mem : x ∈ l) {s : State} {P : GateRec → Prop}
    (here : ∀ t, t.gate g = s.gate g → t.inputs = s.inputs → P ((f t x).gate g)) : P ((l.foldl f s).gate g) := by
  refine foldl_reaches (J := fun t => t.gate g = s.gate g ∧ t.inputs = s.inputs) (K := fun t => P (t.gate g))
    (fun t y ne j => ?_) (fun t j => here t j.1 j.2) (fun t y ne k => ?_) once mem ⟨rfl, rfl⟩
  · have stands := (touch t y).others (alone y ne)
    exact ⟨stands.1.trans j.1, (touch t y).kept.inputs.trans j.2⟩
  · rw [((touch t y).others (alone y ne)).1]
    exact k

theorem allGates_nodup : allGates.Nodup := by decide

/-- The lock-pin feedback of a gate is read from the input levels under the mounting map of its parameters (R2, R3). -/
theorem State.bothPins_congr {s t : State} {g : GateNo} (gate : t.gate g = s.gate g) (inputs : t.inputs = s.inputs)
    (p : PinPos) : t.bothPins g p = s.bothPins g p := by
  unfold State.bothPins State.pin State.pinInput
  rw [gate, inputs]

/-! ### What the end of a move or of an order leaves of the table -/

/-- No slot is RUNNING (R73). -/
def NoneRunning (s : State) : Prop := ∀ k, (s.slot k).state ≠ .running

theorem State.runningCount_eq_zero_iff (s : State) : s.runningCount = 0 ↔ NoneRunning s := by
  simp [State.runningCount, NoneRunning, mem_allSlots]

/-- Between `s` and `t` orders in the states `w` may have ended: every other slot stands, those that ended are neither
GRANTED nor RUNNING; and a report that has become due is right (R73). -/
structure Stilled (w : SlotState → Prop) (s t : State) : Prop where
  slot : ∀ k, t.slot k = s.slot k ∨
    w (s.slot k).state ∧ (t.slot k).state ≠ .granted ∧ (t.slot k).state ≠ .running
  report : t.marks.reportDue = true → s.marks.reportDue = true ∨ NoneRunning t

/-- `Stilled` by operations below the runner, which goes on in its state with its outstanding list. -/
structure Ended (w : SlotState → Prop) (s t : State) : Prop extends Stilled w s t where
  runner : t.runner.state = s.runner.state ∧ t.runner.outstanding = s.runner.outstanding

variable {w : SlotState → Prop} {s t u : State}

theorem Stilled.of_same (slots : t.slots = s.slots) (report : t.marks.reportDue = s.marks.reportDue) : Stilled w s t :=
  ⟨fun k => .inl (congrArg (fun v => v.get k) slots), fun due => .inl (report ▸ due)⟩

theorem Stilled.noneRunning (h : Stilled w s t) (none : NoneRunning s) : NoneRunning t := by
  intro k
  obtain same | ⟨_, _, notRunning⟩ := h.slot k
  · exact same ▸ none k
  · exact notRunning

theorem Stilled.trans (h : Stilled w s t) (k : Stilled w t u) : Stilled w s u := by
  refine ⟨fun j => ?_, fun due => ?_⟩
  · obtain same | ⟨was, now⟩ := k.slot j
    · rw [same]
      exact h.slot j
    · obtain same | ⟨was', _⟩ := h.slot j
      · exact .inr ⟨same ▸ was, now⟩
      · exact .inr ⟨was', now⟩
  · obtain due | none := k.report due
    · exact (h.report due).imp_right k.noneRunning
    · exact .inr none

theorem Stilled.ite {a b : State} {p : Prop} [Decidable p] (ha : p → Stilled w s a) (hb : Stilled w s b) :
    Stilled w s (if p then a else b) := by
  split
  · next h => exact ha h
  · exact hb

theorem Stilled.foldl {α : Type} {f : State → α → State} (h : ∀ s x, Stilled w s (f s x)) (l : List α) (s : State) :
    Stilled w s (l.foldl f s) := by
  induction l generalizing s with
  | nil => exact .of_same rfl rfl
  | cons x l ih => exact (h s x).trans (ih _)

/-- A slot whose order ends. -/
theorem Stilled.setSlot {k : SlotNo} {r : Slot} (was : w (s.slot k).state) (granted : r.state ≠ .granted)
    (running : r.state ≠ .running) : Stilled w s (s.setSlot k r) := by
  refine ⟨fun j => ?_, .inl⟩
  by_cases e : k = j
  · subst e
    rw [State.slot_setSlot_self]
    exact .inr ⟨was, granted, running⟩
  · exact .inl (s.slot_setSlot_ne r e)

/-- A slot that is not GRANTED does not become so. -/
theorem Stilled.not_granted (h : Stilled w s t) {k : SlotNo} (st : (s.slot k).state ≠ .granted) :
    (t.slot k).state ≠ .granted := by
  obtain same | ⟨_, notGranted, _⟩ := h.slot k
  · exact same ▸ st
  · exact notGranted

/-- A slot in a state outside `w` stands. -/
theorem Stilled.slot_of_not (h : Stilled w s t) {k : SlotNo} (st : ¬w (s.slot k).state) : t.slot k = s.slot k :=
  (h.slot k).resolve_right fun ended => st ended.1

theorem Ended.of_same (slots : t.slots = s.slots) (report : t.marks.reportDue = s.marks.reportDue)
    (runner : t.runner = s.runner) : Ended w s t :=
  ⟨.of_same slots report, congrArg Runner.state runner, congrArg Runner.outstanding runner⟩

theorem Ended.refl (s : State) : Ended w s s := .of_same rfl rfl rfl

theorem Ended.trans (h : Ended w s t) (k : Ended w t u) : Ended w s u :=
  ⟨h.toStilled.trans k.toStilled, k.runner.1.trans h.runner.1, k.runner.2.trans h.runner.2⟩

theorem Ended.ite {a b : State} {p : Prop} [Decidable p] (ha : p → Ended w s a) (hb : Ended w s b) :
    Ended w s (if p then a else b) := by
  split
  · next h => exact ha h
  · exact hb

theorem Ended.foldl {α : Type} {f : State → α → State} (h : ∀ s x, Ended w s (f s x)) (l : List α) (s : State) :
    Ended w s (l.foldl f s) := by
  induction l generalizing s with
  | nil => exact .refl s
  | cons x l ih => exact (h s x).trans (ih _)

theorem Ended.setSlot {k : SlotNo} {r : Slot} (was : w (s.slot k).state) (granted : r.state ≠ .granted)
    (running : r.state ≠ .running) : Ended w s (s.setSlot k r) := ⟨.setSlot was granted running, rfl, rfl⟩

theorem State.slots_noteRunning (s : State) : s.noteRunning.slots = s.slots := by
  unfold State.noteRunning
  split <;> rfl

/-- After the stops or cuts of a drain the report is due exactly where no slot is RUNNING (R73, R189). -/
theorem Stilled.report_noteRunning (h : Stilled w s t) (none : s.marks.reportDue = false) :
    t.noteRunning.marks.reportDue = decide (t.noteRunning.runningCount = 0) := by
  have same : t.noteRunning.runningCount = t.runningCount := by
    unfold State.runningCount State.slot
    rw [t.slots_noteRunning]
  rw [same]
  unfold State.noteRunning
  by_cases count : t.runningCount = 0
  · rw [if_pos count, decide_eq_true count]
    rfl
  · rw [if_neg count, decide_eq_false count]
    refine Bool.eq_false_iff.2 fun due => ?_
    obtain due | no := h.report due
    · exact absurd (none.symm.trans due) (by simp)
    · exact count (t.runningCount_eq_zero_iff.2 no)

/-! ### The operations that end moves and orders -/

namespace State

theorem ended_noteRunning (s : State) : Ended w s s.noteRunning := by
  unfold noteRunning
  split
  · next count => exact ⟨⟨fun _ => .inl rfl, fun _ => .inr (s.runningCount_eq_zero_iff.1 count)⟩, rfl, rfl⟩
  · exact .refl s

theorem ended_handBack (s : State) (u : UnitNo) : Ended w s (s.handBack u) := by
  rw [s.handBack_eq]
  exact .of_same rfl rfl rfl

theorem ended_handBackOf (s : State) (old : Slot) : Ended w s (s.handBackOf old) := by
  unfold handBackOf
  split
  · exact s.ended_handBack _
  · exact .of_same rfl rfl rfl
  · exact .refl s

theorem ended_releaseUnit (s : State) (u : Option UnitNo) : Ended w s (s.releaseUnit u) := by
  unfold releaseUnit
  split
  · exact .refl s
  · exact .ite (fun _ => .of_same rfl rfl rfl) (.refl s)

theorem Slot.state_completed (r : Slot) (o : Order) (e : Ending) (c : Clock) :
    (r.completed o e c).state = .done ∨ (r.completed o e c).state = .armed := by
  unfold Slot.completed
  cases o.rep
  · exact .inl rfl
  · exact .inr rfl

theorem ended_complete {k : SlotNo} (was : w (s.slot k).state) (e : Ending) : Ended w s (s.complete k e) := by
  unfold complete
  simp only
  split
  · exact .refl s
  · next o _ =>
    have ended : Ended w s (s.setSlot k ((s.slot k).completed o e s.clock)) := by
      refine .setSlot was ?_ ?_ <;> obtain st | st := Slot.state_completed (s.slot k) o e s.clock <;> simp [st]
    exact ended.trans (.ite (fun _ => ⟨.of_same rfl rfl, rfl, rfl⟩) (.of_same rfl rfl rfl))

theorem ended_completeGranted (granted : w .granted) (s : State) (k : SlotNo) (o : OrderOutcome)
    (c : Option TripCause) (l r : Option Int) : Ended w s (s.completeGranted k o c l r) :=
  .ite (fun st => (ended_complete (by exact st.symm ▸ granted) _).trans (ended_handBackOf _ _)) (.refl s)

theorem ended_completeRunning (running : w .running) (s : State) (k : SlotNo) (o : OrderOutcome)
    (c : Option TripCause) (l r : Option Int) : Ended w s (s.completeRunning k o c l r) :=
  .ite (fun st => (ended_complete (by exact st.symm ▸ running) _).trans (ended_noteRunning _)) (.refl s)

theorem ended_freeSlot {k : SlotNo} (was : w (s.slot k).state) : Ended w s (s.freeSlot k) := by
  have freed : Ended w s (s.setSlot k Slot.empty) := .setSlot was (by simp [Slot.empty]) (by simp [Slot.empty])
  have dropped : Ended w s ((s.setSlot k Slot.empty).dropLock k) :=
    freed.trans (.ite (fun _ => .of_same rfl rfl rfl) (.refl _))
  exact .ite (fun _ => dropped.trans ⟨.of_same rfl rfl, rfl, rfl⟩) dropped

theorem ended_endOrder (running : w .running) (s : State) (r : GateRec) (o : OrderOutcome) (c : Option TripCause) :
    Ended w s (s.endOrder r o c) := by
  unfold endOrder
  split
  · exact .refl s
  · refine .ite (fun _ => .ite (fun st => ?_) (.refl s)) (s.ended_completeRunning running _ _ _ _ _)
    exact (ended_freeSlot (by exact st.symm ▸ running)).trans (ended_noteRunning _)

theorem ended_park (running : w .running) (s : State) (g : GateNo) : Ended w s (s.park g) := by
  have parked : Ended w s (s.setGate g (s.gate g).parked) := .of_same rfl rfl rfl
  exact ((parked.trans (ended_endOrder running _ _ _ _)).trans (ended_releaseUnit _ _)).trans (.of_same rfl rfl rfl)

theorem ended_enterLocking (running : w .running) (s : State) (g : GateNo) (o : OrderOutcome) :
    Ended w s (s.enterLocking g o) := by
  have locked : Ended w s (s.modGate g fun r => { r.locking with move := r.locking.move.setPending o }) :=
    .of_same rfl rfl rfl
  exact .ite (fun _ => locked.trans (ended_park running _ g)) locked

theorem ended_cutStream (running : w .running) (s : State) (g : GateNo) : Ended w s (s.cutStream g) := by
  unfold cutStream
  refine .ite (fun _ => ?_) (.refl s)
  split
  · exact .of_same rfl rfl rfl
  · exact .of_same rfl rfl rfl
  · exact .of_same rfl rfl rfl
  · exact s.ended_enterLocking running g _
  · exact .refl s

theorem ended_stopMove (running : w .running) (s : State) (g : GateNo) : Ended w s (s.stopMove g) := by
  unfold stopMove
  split
  · exact s.ended_enterLocking running g _
  · exact s.ended_enterLocking running g _
  · exact s.ended_enterLocking running g _
  · exact s.ended_enterLocking running g _
  · exact s.ended_enterLocking running g _
  · exact .of_same rfl rfl rfl
  · exact .refl s

theorem ended_ungrant (granted : w .granted) (s : State) (k : SlotNo) : Ended w s (s.ungrant k) := by
  unfold ungrant
  refine .ite (fun st => ?_) (.refl s)
  have returned : Ended w s (s.setSlot k (s.slot k).returned) :=
    .setSlot (by exact st.symm ▸ granted) (by simp [Slot.returned]) (by simp [Slot.returned])
  have opened : Ended w s (s.setSlot k (s.slot k).returned).openRound := returned.trans (.of_same rfl rfl rfl)
  exact opened.trans (ended_handBackOf _ _)

/-- A withdrawal ends a PENDING or a GRANTED order (R72). -/
theorem stilled_withdraw (waiting : w .pending ∧ w .granted) (s : State) (k : SlotNo) : Stilled w s (s.withdraw k) := by
  unfold withdraw
  refine .ite (fun h => ?_) (.of_same rfl rfl)
  have was : w (s.slot k).state := by
    obtain ⟨_, st | st⟩ := h
    · exact st.symm ▸ waiting.1
    · exact st.symm ▸ waiting.2
  exact ((ended_freeSlot was).trans (ended_handBackOf _ _)).toStilled.trans (.of_same rfl rfl)

theorem stilled_windDown (waiting : w .pending ∧ w .granted) (s : State) (o : EndOutcome) (c : Option FailCause)
    (k : Option SlotNo) : Stilled w s (s.windDown o c k) := by
  have winding : Stilled w s (s.modRunner fun r => r.toWinding o c k) := .of_same rfl rfl
  exact (winding.trans (.foldl (stilled_withdraw waiting) _ _)).trans (.ite (fun _ => .of_same rfl rfl) (.of_same rfl rfl))

theorem stilled_stopRunner (waiting : w .pending ∧ w .granted) (s : State) : Stilled w s s.stopRunner := by
  unfold stopRunner
  split
  · exact s.stilled_windDown waiting _ _ _
  · exact s.stilled_windDown waiting _ _ _
  · exact s.stilled_windDown waiting _ _ _
  · exact .of_same rfl rfl

end State

/-! ### The end of a drain's own event (R189) -/

/-- Outside RUN a round grants nothing and clears its own mark (R78, R79). -/
theorem State.takeRound_of_not_run (mode : s.mode ≠ .run) :
    s.takeRound = { s with marks := ⟨false, s.marks.reportDue⟩ } := by
  have passes : State.passes 3 s = s := by
    unfold State.passes
    rw [State.choice_of_not_run mode]
  unfold State.takeRound
  rw [passes]
  split
  · rfl
  · next clear =>
    rw [← Bool.eq_false_iff.2 clear]

/-- The first event of a drain whose report is right: the drain ends where no slot is RUNNING, and nothing else changes
but the link port and the marks (R189). -/
theorem State.finish_of_draining (mode : s.mode = .draining)
    (report : s.marks.reportDue = decide (s.runningCount = 0)) :
    ∃ l, s.finish = { s with
      mode := if s.runningCount = 0 then .config else .draining,
      flavour := if s.runningCount = 0 then none else s.flavour, link := l, marks := ⟨false, false⟩ } := by
  unfold State.finish State.takeReport
  by_cases count : s.runningCount = 0
  · simp only [report, count, decide_true, if_true, State.mode_markReport, mode]
    rw [State.takeRound_of_not_run (by simp [State.changeMode])]
    exact ⟨_, rfl⟩
  · simp only [report, count, decide_false, Bool.false_eq_true, if_false]
    rw [State.takeRound_of_not_run (by simp [mode]), report, decide_eq_false count, ← mode]
    exact ⟨s.link, rfl⟩

/-- What the event of a HOLD or a STOP_ALL leaves of a drain `u` with a right report: the mode and the flavour by the
RUNNING slots, and of the other blocks what `u` has (R187 to R189). -/
theorem request_drained {n : Byte} {r : Request} (l : Listening s) (test : s.modeTest r = none) (ne : r ≠ .reset)
    (serve : s.serve r = State.withMode .ok u.finish) (mode : u.mode = .draining)
    (report : u.marks.reportDue = decide (u.runningCount = 0)) :
    ∃ t, request s n r = .next t ∧
      (if t.runningCount = 0 then t.mode = .config ∧ t.flavour = none
        else t.mode = .draining ∧ t.flavour = u.flavour) ∧
      t.gates = u.gates ∧ t.slots = u.slots ∧ t.runner = u.runner ∧ t.tide = u.tide ∧ t.clock = u.clock := by
  obtain ⟨link, finished⟩ := State.finish_of_draining mode report
  obtain ⟨link', count, replied⟩ := u.finish.reply_frame s.link.line.isNone
    ((State.withMode .ok u.finish).1.reply n (BitVec.ofNat 8 (codeOf r)))
  refine ⟨_, (request_replied l test ne serve).trans (congrArg _ replied), ?_⟩
  rw [finished]
  refine ⟨?_, rfl, rfl, rfl, rfl, rfl⟩
  show if u.runningCount = 0 then _ else _
  split
  · exact ⟨rfl, rfl⟩
  · exact ⟨rfl, rfl⟩

end Sys2Proof.Machine
end

section
/-! HOLD (R73, R162, R187): every grant ended, every stream cut. -/

namespace Sys2Proof.Machine

open Sys2Proof.Safety

variable {s : State} {g : GateNo} {k : SlotNo}

/-! ### The grants (R73) -/

theorem State.slots_handBackOf (s : State) (old : Slot) : (s.handBackOf old).slots = s.slots := by
  unfold State.handBackOf
  split
  · rw [s.handBack_eq]
    rfl
  · rfl
  · rfl

theorem State.slot_handBackOf (s : State) (old : Slot) (k : SlotNo) : (s.handBackOf old).slot k = s.slot k :=
  congrArg (fun v => v.get k) (s.slots_handBackOf old)

theorem State.slot_ungrant_ne {j : SlotNo} (ne : j ≠ k) : (s.ungrant j).slot k = s.slot k := by
  unfold State.ungrant
  simp only
  split
  · rw [State.slot_handBackOf]
    exact s.slot_setSlot_ne _ ne
  · rfl

theorem State.slot_ungrant (granted : (s.slot k).state = .granted) : (s.ungrant k).slot k = (s.slot k).returned := by
  unfold State.ungrant
  rw [if_pos granted, State.slot_handBackOf]
  exact s.slot_setSlot_self k _

/-- The start of a HOLD drain returns a GRANTED slot (R73). -/
theorem State.slot_foldl_ungrant (granted : (s.slot k).state = .granted) :
    (allSlots.foldl State.ungrant s).slot k = (s.slot k).returned := by
  refine foldl_reaches (J := fun t => t.slot k = s.slot k) (K := fun t => t.slot k = (s.slot k).returned)
    (fun t j ne same => (State.slot_ungrant_ne ne).trans same) (fun t same => ?_)
    (fun t j ne same => (State.slot_ungrant_ne ne).trans same) allSlots_nodup (mem_allSlots k) rfl
  rw [← same] at granted ⊢
  exact State.slot_ungrant granted

/-! ### The cut (R162) -/

theorem State.cutStream_of_other (kind : (s.gate g).kind ≠ some .stream) : s.cutStream g = s := if_neg kind

/-- On its way to TRAVEL and in it a STREAM gate takes the cut mark (R162). -/
theorem State.cutStream_of_moving (kind : (s.gate g).kind = some .stream)
    (st : (s.gate g).state = .releasing ∨ (s.gate g).state = .building ∨ (s.gate g).state = .travel) :
    s.cutStream g = s.setGate g { s.gate g with move := { (s.gate g).move with cut := true } } := by
  unfold State.cutStream
  rw [if_pos kind]
  obtain st | st | st := st <;> rw [st] <;> rfl

/-- In HELD the cut ends the stream (R162). -/
theorem State.cutStream_of_held (kind : (s.gate g).kind = some .stream) (st : (s.gate g).state = .held) :
    s.cutStream g = s.enterLocking g .cut := by
  unfold State.cutStream
  rw [if_pos kind, st]

/-! ### The drain -/

/-- The state at the beginning of a HOLD drain with its grants returned, before the streams are cut. -/
def State.heldTable (s : State) : State :=
  allSlots.foldl State.ungrant (s.changeMode .draining (some .hold) .request)

theorem State.beginHold_eq (s : State) :
    s.beginHold = (allGates.foldl State.cutStream s.heldTable).noteRunning := rfl

theorem State.touch_beginHold (s : State) :
    Touch (fun _ => True) (s.changeMode .draining (some .hold) .request) s.beginHold :=
  ((Touch.foldl State.touch_ungrant _ _).trans (Touch.foldl (fun s g => (s.touch_cutStream g).any) _ _)).trans
    (State.touch_noteRunning _)

/-- The cut finds a gate as it was before the drain, and what it leaves of the gate stands. -/
theorem State.gate_beginHold {P : GateRec → Prop}
    (here : ∀ t : State, t.gate g = s.gate g → t.inputs = s.inputs → P ((t.cutStream g).gate g)) : P (s.beginHold.gate g) := by
  have ungranted : Touch (fun _ => False) (s.changeMode .draining (some .hold) .request) s.heldTable :=
    Touch.foldl State.touch_ungrant _ _
  rw [State.beginHold_eq, ((State.touch_noteRunning (m := fun _ => False) _).others not_false).1]
  exact State.gate_foldl State.touch_cutStream (fun _ ne => ne) allGates_nodup (mem_allGates g) fun t gate inputs =>
    here t (gate.trans (ungranted.others not_false).1) (inputs.trans ungranted.kept.inputs)

theorem State.ended_beginHold (s : State) :
    Ended (fun _ => True) s (allGates.foldl State.cutStream s.heldTable) := by
  have begun : Ended (fun _ => True) s (s.changeMode .draining (some .hold) .request) := .of_same rfl rfl rfl
  exact (begun.trans (.foldl (State.ended_ungrant trivial) _ _)).trans (.foldl (State.ended_cutStream trivial) _ _)

/-- A GRANTED slot is PENDING after the beginning of a HOLD drain: a cut ends RUNNING orders alone (R73). -/
theorem State.slot_beginHold (granted : (s.slot k).state = .granted) : s.beginHold.slot k = (s.slot k).returned := by
  have returned : s.heldTable.slot k = (s.slot k).returned :=
    State.slot_foldl_ungrant (s := s.changeMode .draining (some .hold) .request) granted
  have cut : Ended (fun st => st = .running) s.heldTable s.beginHold :=
    (Ended.foldl (State.ended_cutStream (w := fun st => st = .running) rfl) _ _).trans (State.ended_noteRunning _)
  rw [cut.slot_of_not (by simp [returned, Slot.returned]), returned]

/-- At the beginning of the drain the report is due where no slot is RUNNING (R189). -/
theorem State.report_beginHold (clear : s.marks.reportDue = false) :
    s.beginHold.marks.reportDue = decide (s.beginHold.runningCount = 0) := by
  rw [State.beginHold_eq]
  exact s.ended_beginHold.report_noteRunning clear

theorem State.runner_beginHold (s : State) : s.beginHold.runner.state = s.runner.state := by
  rw [State.beginHold_eq]
  exact (s.ended_beginHold.trans (State.ended_noteRunning _)).runner.1

theorem State.serve_hold (mode : s.mode = .run) : s.serve .hold = State.withMode .ok s.beginHold.finish := by
  simp only [State.serve, State.serveHold, mode]

end Sys2Proof.Machine

namespace Sys2Proof.Proofs

open Sys2Proof.Machine Sys2Proof.Safety

/-- Settles O12: a HOLD drain leaves the record of each gate as the cut of that gate does, and each grant returned; its
event ends in CONFIG where no slot is RUNNING. -/
theorem holdBeginsDrain : Obligations.HoldBeginsDrain := by
  unfold Obligations.HoldBeginsDrain
  intro n s l m mode
  have clear : s.marks = ⟨false, false⟩ := m
  have kept := s.touch_beginHold.kept
  have test : s.modeTest .hold = none := State.modeTest_of_anyMode (by simp [mode]) rfl (by simp)
  obtain ⟨t, ran, modes, gates, slots, runner, tide, clock⟩ := request_drained l test (by simp)
    (State.serve_hold mode) kept.mode (State.report_beginHold (by simp [clear]))
  have gate : ∀ g, t.gate g = s.beginHold.gate g := fun g => congrArg (fun v => v.get g) gates
  have slot : ∀ k, t.slot k = s.beginHold.slot k := fun k => congrArg (fun v => v.get k) slots
  have flavour : s.beginHold.flavour = some .hold := kept.flavour
  rw [flavour] at modes
  refine ⟨t, ran, modes, fun k granted => ?grant, fun g kind => ?other, fun g kind st => ?travel,
    fun g kind st => ?before, fun g kind st pins => ?held,
    (congrArg Runner.state runner).trans s.runner_beginHold,
    tide.trans kept.tide, clock.trans kept.clock⟩
  case grant =>
    rw [slot, State.slot_beginHold granted]
    exact ⟨rfl, rfl, rfl, rfl, rfl⟩
  case other =>
    rw [gate]
    refine State.gate_beginHold (P := (· = s.gate g)) fun u same _ => ?_
    rw [State.cutStream_of_other (same ▸ kind), same]
  case travel =>
    rw [gate]
    refine State.gate_beginHold (P := (· = _)) fun u same _ => ?_
    rw [State.cutStream_of_moving (same ▸ kind) (.inr (.inr (same ▸ st))), State.gate_setGate_self, same]
  case before =>
    rw [gate]
    refine State.gate_beginHold (P := (· = _)) fun u same _ => ?_
    rw [State.cutStream_of_moving (same ▸ kind) (same ▸ st.imp_right .inl), State.gate_setGate_self, same]
  case held =>
    rw [gate]
    refine State.gate_beginHold (P := fun r => EntersLocking (s.gate g) r ∧
      r.move.outcome = some ((s.gate g).move.outcome.getD .cut)) fun u same inputs => ?_
    rw [State.cutStream_of_held (same ▸ kind) (same ▸ st),
      State.enterLocking_of_pins _ ((State.bothPins_congr same inputs _).trans pins), State.gate_setGate_self, same]
    exact ⟨(s.gate g).entersLocking .cut, Move.outcome_setPending _ (by simp)⟩

end Sys2Proof.Proofs
end

section
/-! STOP_ALL (R31, R41, R60, R181, R188): the stops of a drain, given in a free order (log 8). -/

namespace Sys2Proof.Machine

open Sys2Proof.Safety

variable {s : State} {g : GateNo} {k : SlotNo}

/-! ### One stop -/

/-- Entry to LOCKING of a gate whose pins read ENGAGED already parks it (R31). -/
theorem State.enterLocking_of_engaged (o : OrderOutcome) (pins : s.bothPins g .engaged = true) :
    ((s.enterLocking g o).gate g).state = .parked := by
  have same : (s.modGate g fun r => { r.locking with move := r.locking.move.setPending o }).bothPins g .engaged =
      s.bothPins g .engaged := State.bothPins_setGate _ rfl
  simp only [State.enterLocking, same, pins, if_true, State.gate_park]
  rfl

/-- A stop takes a moving gate that is not in LOCKING there (R41). -/
theorem State.stopMove_of_moving (moving : (s.gate g).state.moving = true) (ne : (s.gate g).state ≠ .locking) :
    s.stopMove g = s.enterLocking g .stopped := by
  unfold State.stopMove
  cases st : (s.gate g).state with
  | locking => exact absurd st ne
  | absent | parked | tripped => simp [st, GateState.moving] at moving
  | releasing | building | travel | held | settling => rfl

/-- A stop of a gate in LOCKING replaces its pending outcome (R42). -/
theorem State.stopMove_of_locking (st : (s.gate g).state = .locking) :
    s.stopMove g = s.setGate g { s.gate g with move := { (s.gate g).move with outcome := some .stopped } } := by
  unfold State.stopMove
  rw [st]
  rfl

/-- A GRANTED order that is completed is no longer GRANTED (R59, R60). -/
theorem State.completeGranted_not_granted {o : Order} (order : (s.slot k).order = some o) (x : OrderOutcome)
    (c : Option TripCause) (l r : Option Int) : ((s.completeGranted k x c l r).slot k).state ≠ .granted := by
  unfold State.completeGranted
  simp only
  split
  · rw [State.slot_handBackOf, State.complete_eq _ _ _ _ order]
    have slot : ∀ y, (completes s k o y).slot k = completedWith (s.slot k) o y := fun y => s.slot_setSlot_self k _
    rw [slot, completedWith]
    simp only
    split <;> simp
  · next granted => exact granted

/-- The stop of a gate touches that gate, and no other stop touches it (R188). -/
theorem State.touch_stopItem_gate (s : State) (i : StopItem) : Touch (fun g => i = .gate g) s (s.stopItem i) := by
  cases i with
  | gate h => exact (s.touch_stopMove h).mono fun _ e => congrArg _ e
  | slot k =>
    unfold State.stopItem
    simp only
    split
    · exact s.touch_completeGranted _ _ _ _ _
    · exact .refl s
  | runner => exact s.touch_stopRunner

/-- A stop that is not the runner's ends moves and orders alone. -/
theorem State.ended_stopItem {i : StopItem} (ne : i ≠ .runner) (s : State) : Ended (fun _ => True) s (s.stopItem i) := by
  cases i with
  | gate h => exact s.ended_stopMove trivial h
  | slot k =>
    unfold State.stopItem
    simp only
    split
    · exact s.ended_completeGranted trivial _ _ _ _ _
    · exact .refl s
  | runner => exact absurd rfl ne

theorem State.stilled_stopItem (s : State) (i : StopItem) : Stilled (fun _ => True) s (s.stopItem i) := by
  by_cases e : i = .runner
  · subst e
    exact s.stilled_stopRunner ⟨trivial, trivial⟩
  · exact (s.ended_stopItem e).toStilled

/-- In POSTING, STEP and DWELL a stop winds the runner down to ABORTED (R181). -/
theorem State.stopRunner_of_active
    (st : s.runner.state = .posting ∨ s.runner.state = .step ∨ s.runner.state = .dwell) :
    s.stopRunner = s.windDown .aborted none none := by
  obtain st | st | st := st <;> simp only [State.stopRunner, st]

/-! ### The stops of a drain (R188) -/

theorem State.mem_stopItems_gate : .gate g ∈ s.stopItems ↔ (s.gate g).state.moving = true := by
  unfold State.stopItems
  split <;> simp [mem_allGates]

theorem State.mem_stopItems_slot : .slot k ∈ s.stopItems ↔ (s.slot k).state = .granted := by
  unfold State.stopItems
  split <;> simp [mem_allSlots]

theorem State.mem_stopItems_runner : .runner ∈ s.stopItems ↔ s.runner.state ≠ .idle := by
  unfold State.stopItems
  split <;> simp_all

theorem State.stopItems_nodup (s : State) : s.stopItems.Nodup := by
  have gates : ((allGates.filter fun g => (s.gate g).state.moving).map StopItem.gate).Nodup :=
    (allGates_nodup.filter _).map fun _ _ e => StopItem.gate.inj e
  have slots : ((allSlots.filter fun k => (s.slot k).state == .granted).map StopItem.slot).Nodup :=
    (allSlots_nodup.filter _).map fun _ _ e => StopItem.slot.inj e
  have runner : (if s.runner.state = .idle then [] else [StopItem.runner]).Nodup := by split <;> simp
  unfold State.stopItems
  refine List.Nodup.append (gates.append slots ?_) runner ?_
  · intro i hi hj
    obtain ⟨g, _, rfl⟩ := List.mem_map.1 hi
    obtain ⟨k, _, e⟩ := List.mem_map.1 hj
    cases e
  · intro i hi hj
    split at hj
    · cases hj
    · rw [List.mem_singleton.1 hj] at hi
      simp at hi

/-- The stops of a drain are given each once, in some order (log 8), and the table reports after them. -/
theorem State.giveStops_eq (s : State) :
    ∃ (c : Nat) (l : List StopItem), l.Nodup ∧ (∀ i, i ∈ l ↔ i ∈ s.stopItems) ∧
      s.giveStops = (l.foldl State.stopItem { s with freeCount := c }).noteRunning := by
  have perm := freeOrder_perm s.freeCount s.stopItems
  have counted : ∃ c, (if 2 ≤ s.stopItems.length then s.bump else s) = { s with freeCount := c } := by
    split
    · exact ⟨_, rfl⟩
    · exact ⟨s.freeCount, rfl⟩
  obtain ⟨c, counted⟩ := counted
  refine ⟨c, _, perm.nodup_iff.2 s.stopItems_nodup, fun i => perm.mem_iff, ?_⟩
  rw [← counted]
  rfl

/-- After the stops the report is due where no slot is RUNNING (R188, R189). -/
theorem State.report_giveStops (clear : s.marks.reportDue = false) :
    s.giveStops.marks.reportDue = decide (s.giveStops.runningCount = 0) := by
  obtain ⟨c, l, _, _, given⟩ := s.giveStops_eq
  rw [given]
  exact (Stilled.foldl State.stilled_stopItem l { s with freeCount := c }).report_noteRunning clear

theorem State.gate_noteRunning (s : State) (g : GateNo) : s.noteRunning.gate g = s.gate g :=
  ((State.touch_noteRunning (m := fun _ => False) s).others not_false).1

/-- The stop of a moving gate finds it as it was before the drain, and what it leaves of the gate stands. -/
theorem State.gate_giveStops {P : GateRec → Prop} (moving : (s.gate g).state.moving = true)
    (here : ∀ t : State, t.gate g = s.gate g → t.inputs = s.inputs → P ((t.stopMove g).gate g)) :
    P (s.giveStops.gate g) := by
  obtain ⟨c, l, once, mem, given⟩ := s.giveStops_eq
  rw [given, State.gate_noteRunning]
  exact State.gate_foldl (s := { s with freeCount := c }) State.touch_stopItem_gate (fun _ ne => ne) once
    ((mem _).2 (State.mem_stopItems_gate.2 moving)) here

/-- A gate at rest gets no stop. -/
theorem State.gate_giveStops_of_rest (rest : (s.gate g).state.moving = false) : s.giveStops.gate g = s.gate g := by
  obtain ⟨c, l, _, mem, given⟩ := s.giveStops_eq
  rw [given, State.gate_noteRunning]
  refine List.foldlRecOn (motive := fun t : State => t.gate g = s.gate g) l State.stopItem rfl fun t same i hi => ?_
  have other : ¬i = .gate g := by
    rintro rfl
    exact absurd (State.mem_stopItems_gate.1 ((mem _).1 hi)) (by simp [rest])
  exact ((t.touch_stopItem_gate i).others other).1.trans same

/-- No order is left GRANTED (R60, R188). -/
theorem State.slot_giveStops (granted : (s.slot k).state = .granted) (order : (s.slot k).order.isSome = true) :
    (s.giveStops.slot k).state ≠ .granted := by
  obtain ⟨c, l, once, mem, given⟩ := s.giveStops_eq
  obtain ⟨o, order⟩ := Option.isSome_iff_exists.1 order
  have slot : ∀ t : State, t.noteRunning.slot k = t.slot k := fun t => congrArg (fun v => v.get k) t.slots_noteRunning
  rw [given, slot]
  refine foldl_reaches (J := fun t => t.slot k = s.slot k ∨ (t.slot k).state ≠ .granted)
    (K := fun t => (t.slot k).state ≠ .granted) (fun t i _ now => ?_) (fun t now => ?_)
    (fun t i _ st => (t.stilled_stopItem i).not_granted st) once ((mem _).2 (State.mem_stopItems_slot.2 granted))
    (.inl rfl)
  · obtain same | st := now
    · exact ((t.stilled_stopItem i).slot k).imp (fun stands => stands.trans same) fun ended => ended.2.1
    · exact .inr ((t.stilled_stopItem i).not_granted st)
  · obtain same | st := now
    · have order' : (t.slot k).order = some o := by rw [same, order]
      simp only [State.stopItem, order']
      exact State.completeGranted_not_granted order' _ _ _ _
    · exact (t.stilled_stopItem _).not_granted st

/-- A runner with nothing outstanding ends at its stop, and no other stop starts it (R181, R188). -/
theorem State.runner_giveStops (st : s.runner.state = .posting ∨ s.runner.state = .dwell)
    (out : s.runner.outstanding = []) : s.giveStops.runner.state = .idle := by
  obtain ⟨c, l, once, mem, given⟩ := s.giveStops_eq
  have active : s.runner.state ≠ .idle := by obtain st | st := st <;> simp [st]
  rw [given, (State.ended_noteRunning (w := fun _ => True) _).runner.1]
  refine foldl_reaches
    (J := fun t => (t.runner.state = .posting ∨ t.runner.state = .dwell) ∧ t.runner.outstanding = [])
    (K := fun t => t.runner.state = .idle) (fun t i ne waits => ?_) (fun t waits => ?_)
    (fun t i ne idle => (t.ended_stopItem ne).runner.1.trans idle) once
    ((mem _).2 (State.mem_stopItems_runner.2 active)) ⟨st, out⟩
  · obtain ⟨state, outstanding⟩ := (t.ended_stopItem ne).runner
    rw [state, outstanding]
    exact waits
  · show t.stopRunner.runner.state = .idle
    rw [State.stopRunner_of_active (waits.1.imp_right .inr), State.windDown_of_empty _ _ _ waits.2]
    rfl

/-! ### STOP_ALL -/

/-- The state in a STOP drain with the link port `l`. -/
def State.inStopDrain (s : State) (l : Link) : State :=
  { s with mode := .draining, flavour := some .stop, link := l }

/-- STOP_ALL in RUN and in a drain gives its stops in a STOP drain, which it begins where there is none (R188). -/
theorem State.serve_stopAll (mode : s.mode = .run ∨ s.mode = .draining) :
    ∃ l, s.serve .stopAll = State.withMode .ok (s.inStopDrain l).giveStops.finish := by
  obtain mode | mode := mode
  · simp only [State.serve, State.serveStopAll, mode]
    exact ⟨_, rfl⟩
  · match flavour : s.flavour with
    | none | some .hold =>
      simp only [State.serve, State.serveStopAll, mode, flavour]
      exact ⟨_, rfl⟩
    | some .stop =>
      have already : s.inStopDrain s.link = s := by
        unfold State.inStopDrain
        rw [← mode, ← flavour]
      refine ⟨s.link, ?_⟩
      rw [already]
      simp only [State.serve, State.serveStopAll, mode, flavour]

theorem State.serve_stopAll_of_config (mode : s.mode = .config) :
    s.serve .stopAll = State.withMode .ok s.stopRunner.finish := by
  simp only [State.serve, State.serveStopAll, mode]

/-- The mode bytes of CONFIG (R186). -/
theorem State.withMode_of_config (mode : s.mode = .config) (flavour : s.flavour = none) :
    State.withMode .ok s = (.ok [0, 0], s) := by
  simp only [State.withMode, State.encMode, mode, flavour]
  rfl

end Sys2Proof.Machine

namespace Sys2Proof.Proofs

open Sys2Proof.Machine Sys2Proof.Safety

/-- Settles O13: the stops of a drain each reach their gate, slot or runner whatever their order; in CONFIG the runner
alone is stopped. -/
theorem stopAllStopsEverything : Obligations.StopAllStopsEverything := by
  unfold Obligations.StopAllStopsEverything
  refine ⟨fun n s l m mode => ?drain, fun n s l m mode flavour => ?config⟩
  case drain =>
    obtain ⟨link, serve⟩ := State.serve_stopAll mode
    have clear : s.marks = ⟨false, false⟩ := m
    have test : s.modeTest .stopAll = none :=
      State.modeTest_of_anyMode (by obtain mode | mode := mode <;> simp [mode]) rfl (by simp)
    have kept := (s.inStopDrain link).touch_giveStops.kept
    obtain ⟨t, ran, modes, gates, slots, runner, tide, clock⟩ := request_drained l test (by simp) serve kept.mode
      (State.report_giveStops (congrArg Marks.reportDue clear))
    have gate : ∀ g, t.gate g = (s.inStopDrain link).giveStops.gate g := fun g => congrArg (fun v => v.get g) gates
    have slot : ∀ k, t.slot k = (s.inStopDrain link).giveStops.slot k := fun k => congrArg (fun v => v.get k) slots
    have flavour : (s.inStopDrain link).giveStops.flavour = some .stop := kept.flavour
    rw [flavour] at modes
    refine ⟨t, ran, modes, fun g moving ne => ⟨fun pins => ?parks, fun pins => ?locks⟩, fun g st => ?locking,
      fun g rest => (gate g).trans (State.gate_giveStops_of_rest (s := s.inStopDrain link) rest),
      fun k granted order => ?granted, fun st out => ?runner, tide.trans kept.tide, clock.trans kept.clock⟩
    case parks =>
      rw [gate]
      refine State.gate_giveStops (s := s.inStopDrain link) (P := fun r => r.state = .parked) moving
        fun u (same : u.gate g = s.gate g) inputs => ?_
      rw [State.stopMove_of_moving (same ▸ moving) (same ▸ ne)]
      exact State.enterLocking_of_engaged _ ((State.bothPins_congr same inputs _).trans pins)
    case locks =>
      rw [gate]
      refine State.gate_giveStops (s := s.inStopDrain link)
        (P := fun r => EntersLocking (s.gate g) r ∧ r.move.outcome = some .stopped) moving
        fun u (same : u.gate g = s.gate g) inputs => ?_
      rw [State.stopMove_of_moving (same ▸ moving) (same ▸ ne),
        State.enterLocking_of_pins _ ((State.bothPins_congr same inputs _).trans pins), State.gate_setGate_self, same]
      exact ⟨(s.gate g).entersLocking .stopped, rfl⟩
    case locking =>
      have moving : (s.gate g).state.moving = true := by rw [st]; rfl
      rw [gate]
      refine State.gate_giveStops (s := s.inStopDrain link) (P := (· = _)) moving
        fun u (same : u.gate g = s.gate g) _ => ?_
      rw [State.stopMove_of_locking (same ▸ st), State.gate_setGate_self, same]
    case granted =>
      rw [slot]
      exact State.slot_giveStops (s := s.inStopDrain link) granted order
    case runner =>
      rw [runner]
      exact State.runner_giveStops (s := s.inStopDrain link) st out
  case config =>
    have test : s.modeTest .stopAll = none := State.modeTest_of_config mode _
    have serve : ∀ t, s.stopRunner = t → MarksClear t → t.mode = .config → t.flavour = none →
        s.serve .stopAll = (.ok [0, 0], t) := by
      intro t stopped clear modeT flavourT
      rw [State.serve_stopAll_of_config mode, stopped, State.finish_of_marksClear clear,
        State.withMode_of_config modeT flavourT]
    intro answer ended
    refine ⟨fun st => ?stays, fun st out => ?atOnce, fun k g st out owner pending => ?withdrawn⟩
    case stays =>
      have stopped : s.stopRunner = s := by obtain st | st := st <;> simp only [State.stopRunner, st]
      exact request_served (r := .stopAll) l test (by simp) (serve s stopped m mode flavour) rfl
    case atOnce =>
      have stopped : s.stopRunner = ended s := by
        rw [State.stopRunner_of_active (st.imp_right .inr), State.windDown_of_empty _ _ _ out]
      exact request_answered (r := .stopAll) l test (by simp) (serve (ended s) stopped m mode flavour)
    case withdrawn =>
      have stopped : s.stopRunner = ended (s.rewritten k Slot.empty) := by
        rw [State.stopRunner_of_active (.inr (.inl st)), State.windDown_of_pending _ _ _ out owner pending]
      exact request_answered (r := .stopAll) l test (by simp) (serve _ stopped m mode flavour)

end Sys2Proof.Proofs
end

section
/-! Warm reset (R44, R61, R74, R164, R183, R190, R191): what its start writes, and how RESETTING ends. -/

namespace Sys2Proof.Machine

open Sys2Proof.Safety

variable {s : State} {g : GateNo} {k : SlotNo}

/-! ### The link port (R190, R201, R202) -/

/-- A notice taken while a frame is on the line waits in the queue (R201, R202). -/
theorem Link.take_of_busy {l : Link} (busy : l.line.isSome = true) (n : Notice) :
    l.take n = if l.enables.get n.kindIndex = false then l
      else if 16 ≤ l.notices.length then { l with noticesLost := true }
      else { l with notices := l.notices ++ [n] } := by
  obtain ⟨f, line⟩ := Option.isSome_iff_exists.1 busy
  simp only [Link.take, Link.decideIfIdle, line]

/-- A notice taken while a frame is on the line leaves the line, the reply area and the enables. -/
theorem Link.take_busy_keeps {l : Link} (busy : l.line.isSome = true) (n : Notice) :
    (l.take n).line = l.line ∧ (l.take n).replies = l.replies ∧ (l.take n).enables = l.enables := by
  rw [Link.take_of_busy busy]
  split
  · exact ⟨rfl, rfl, rfl⟩
  · split <;> exact ⟨rfl, rfl, rfl⟩

/-- The link port after a warm reset has discarded what waits in it and placed its reply (R190). -/
def Link.restarted (l : Link) (r : Reply) : Link := { l with replies := [], notices := [] }.place r

theorem Link.restarted_eq (l : Link) (r : Reply) :
    l.restarted r = if l.line.isSome then { l with replies := [r], notices := [] }
      else { l with line := some (.reply r), replies := [], notices := [] } := by
  unfold Link.restarted Link.place Link.decideIfIdle Link.decide
  cases line : l.line <;> simp

theorem Link.restarted_busy (l : Link) (r : Reply) : (l.restarted r).line.isSome = true := by
  rw [Link.restarted_eq]
  split
  · next busy => exact busy
  · rfl

theorem Link.restarted_keeps (l : Link) (r : Reply) :
    (l.restarted r).notices = [] ∧ (l.restarted r).enables = l.enables ∧
      if l.line.isSome then (l.restarted r).line = l.line ∧ (l.restarted r).replies = [r]
      else (l.restarted r).line = some (.reply r) ∧ (l.restarted r).replies = [] := by
  rw [Link.restarted_eq]
  split <;> exact ⟨rfl, rfl, rfl, rfl⟩

/-! ### The start at the order table (R74) -/

/-- A slot as the start of warm reset leaves it (R74). -/
def Slot.atReset (r : Slot) : Slot := if r.state = .running then { r with owner := .host } else Slot.empty

/-- `t` comes from `s` by writes of slots, units, the start queue and the marks of the event. -/
def TableOnly (s t : State) : Prop := ∃ v u q m, t = { s with slots := v, units := u, startQueue := q, marks := m }

theorem TableOnly.refl (s : State) : TableOnly s s := ⟨_, _, _, _, rfl⟩

theorem TableOnly.trans {s t u : State} : TableOnly s t → TableOnly t u → TableOnly s u := by
  rintro ⟨_, _, _, _, rfl⟩ ⟨_, _, _, _, rfl⟩
  exact ⟨_, _, _, _, rfl⟩

theorem State.tableOnly_handBackOf (s : State) (old : Slot) : TableOnly s (s.handBackOf old) := by
  unfold State.handBackOf
  split
  · rw [s.handBack_eq]
    exact ⟨_, _, _, _, rfl⟩
  · exact ⟨_, _, _, _, rfl⟩
  · exact .refl s

theorem State.tableOnly_resetSlot (s : State) (k : SlotNo) : TableOnly s (s.resetSlot k) := by
  have written : ∀ r, TableOnly s (s.setSlot k r) := fun _ => ⟨_, _, _, _, rfl⟩
  unfold State.resetSlot
  simp only
  split
  · exact written _
  · exact (written _).trans (State.tableOnly_handBackOf _ _)

theorem State.slot_resetSlot (s : State) (k : SlotNo) : (s.resetSlot k).slot k = (s.slot k).atReset := by
  unfold State.resetSlot Slot.atReset
  simp only
  split
  · exact s.slot_setSlot_self k _
  · rw [State.slot_handBackOf]
    exact s.slot_setSlot_self k _

theorem State.slot_resetSlot_ne {j : SlotNo} (ne : j ≠ k) : (s.resetSlot j).slot k = s.slot k := by
  unfold State.resetSlot
  simp only
  split
  · exact s.slot_setSlot_ne _ ne
  · rw [State.slot_handBackOf]
    exact s.slot_setSlot_ne _ ne

/-- The start of warm reset at the table: every slot as `Slot.atReset` says, and beside them units, start queue and marks
alone (R74). -/
theorem State.foldl_resetSlot (s : State) :
    TableOnly s (allSlots.foldl State.resetSlot s) ∧
      ∀ k, (allSlots.foldl State.resetSlot s).slot k = (s.slot k).atReset := by
  refine ⟨List.foldlRecOn _ _ (.refl s) fun t only j _ => only.trans (t.tableOnly_resetSlot j), fun k => ?_⟩
  refine foldl_reaches (J := fun t => t.slot k = s.slot k) (K := fun t => t.slot k = (s.slot k).atReset)
    (fun t j ne same => (State.slot_resetSlot_ne ne).trans same) (fun t same => ?_)
    (fun t j ne same => (State.slot_resetSlot_ne ne).trans same) allSlots_nodup (mem_allSlots k) rfl
  rw [← same]
  exact t.slot_resetSlot k

/-! ### The start at the gates (R44) -/

/-- A gate whose pins do not read ENGAGED as the start of warm reset leaves it: in motion it has the reset mark and goes to
LOCKING with pending outcome STOPPED (R44). -/
def GateRec.atReset (r : GateRec) : GateRec :=
  let marked : GateRec := { r with move := { r.move with resetMark := true } }
  if r.state = .locking then marked
  else if r.state.moving then { marked.locking with move := marked.locking.move.setPending .stopped } else r

theorem GateRec.atReset_of_rest {r : GateRec} (rest : r.state.moving = false) : r.atReset = r := by
  have ne : r.state ≠ .locking := fun e => by simp [e, GateState.moving] at rest
  unfold GateRec.atReset
  simp only [ne, rest, if_false, Bool.false_eq_true]

theorem GateRec.atReset_of_locking {r : GateRec} (st : r.state = .locking) :
    r.atReset = { r with move := { r.move with resetMark := true } } := if_pos st

theorem GateRec.atReset_of_moving {r : GateRec} (moving : r.state.moving = true) (ne : r.state ≠ .locking) :
    EntersLocking { r with move := { r.move with resetMark := true } } r.atReset ∧
      r.atReset.move.outcome = some .stopped := by
  unfold GateRec.atReset
  simp only [ne, moving, if_false, if_true]
  exact ⟨GateRec.entersLocking _ .stopped, rfl⟩

theorem GateRec.moving_atReset (r : GateRec) : r.atReset.state.moving = r.state.moving := by
  by_cases st : r.state = .locking
  · rw [GateRec.atReset_of_locking st]
  · by_cases moving : r.state.moving = true
    · rw [(GateRec.atReset_of_moving moving st).1.1, moving]
      rfl
    · rw [GateRec.atReset_of_rest (Bool.eq_false_iff.2 moving)]

theorem State.resetMove_eq
    (pins : (s.gate g).state.moving = true → (s.gate g).state ≠ .locking → s.bothPins g .engaged = false) :
    s.resetMove g = s.setGate g (s.gate g).atReset := by
  have locks : (s.gate g).state.moving = true → (s.gate g).state ≠ .locking →
      (s.modMove g fun m => { m with resetMark := true }).enterLocking g .stopped = s.setGate g (s.gate g).atReset := by
    intro moving ne
    have same : (s.modMove g fun m => { m with resetMark := true }).bothPins g .engaged = s.bothPins g .engaged :=
      State.bothPins_setGate _ rfl
    rw [State.enterLocking_of_pins _ (same.trans (pins moving ne)), State.modMove, State.modGate,
      State.gate_setGate_self, State.setGate_setGate, GateRec.atReset]
    simp only [ne, moving, if_false, if_true]
  unfold State.resetMove
  cases st : (s.gate g).state with
  | absent | parked | tripped =>
    rw [GateRec.atReset_of_rest (by rw [st]; rfl), State.setGate_gate]
  | locking => rw [GateRec.atReset_of_locking st]; rfl
  | releasing | building | travel | held | settling => exact locks (by rw [st]; rfl) (by simp [st])

/-- The start of warm reset at some gates: no gate parks, and those gates alone are written (R44). -/
theorem State.foldl_resetMove {l : List GateNo} (once : l.Nodup)
    (pins : ∀ g ∈ l, (s.gate g).state.moving = true → (s.gate g).state ≠ .locking → s.bothPins g .engaged = false) :
    ∃ v, l.foldl State.resetMove s = { s with gates := v } ∧
      ∀ g, v.get g = if g ∈ l then (s.gate g).atReset else s.gate g := by
  induction l generalizing s with
  | nil => exact ⟨s.gates, rfl, fun g => (if_neg List.not_mem_nil).symm⟩
  | cons h l ih =>
    obtain ⟨out, once⟩ := List.nodup_cons.1 once
    have same : ∀ g ∈ l, (s.setGate h (s.gate h).atReset).gate g = s.gate g := fun g mem =>
      s.gate_setGate_ne _ fun e => out (e ▸ mem)
    obtain ⟨v, reset, gates⟩ := ih (s := s.setGate h (s.gate h).atReset) once fun g mem => by
      rw [same g mem, State.bothPins_congr (same g mem) rfl]
      exact pins g (List.mem_cons_of_mem _ mem)
    refine ⟨v, ?_, fun g => ?_⟩
    · rw [List.foldl_cons, State.resetMove_eq (pins h List.mem_cons_self), reset]
      rfl
    · rw [gates]
      by_cases mem : g ∈ l
      · rw [if_pos mem, if_pos (List.mem_cons_of_mem _ mem), same g mem]
      · by_cases e : g = h
        · subst e
          rw [if_neg mem, if_pos List.mem_cons_self, State.gate_setGate_self]
        · have notMem : g ∉ h :: l := fun m => (List.mem_cons.1 m).elim e mem
          rw [if_neg mem, if_neg notMem, s.gate_setGate_ne _ (Ne.symm e)]

/-! ### The start at the blocks, and the end of RESETTING (R190, R191) -/

/-- No gate with pins that read ENGAGED has still to go to LOCKING. -/
def State.PinsFree (s : State) : Prop :=
  ∀ g, (s.gate g).state.moving = true → (s.gate g).state ≠ .locking → s.bothPins g .engaged = false

/-- Every gate at rest. -/
def State.AtRest (s : State) : Prop := ∀ g, (s.gate g).state.moving = false

theorem State.atRest_iff (s : State) : (allGates.all fun g => !(s.gate g).state.moving) = true ↔ s.AtRest := by
  simp [State.AtRest, mem_allGates]

/-- `t` is `s` after the start of warm reset at the blocks: slots and gates as `atReset` says, the lock and the runner
cleared, the step pointer at its cold place, and beside these units, start queue and marks alone written (R190, step 4). -/
structure BlocksReset (s t : State) : Prop where
  slot : ∀ k, t.slot k = (s.slot k).atReset
  gate : ∀ g, t.gate g = (s.gate g).atReset
  lock : t.lock = none
  runner : t.runner = .idle
  steps : t.stage.steps = s.stage.steps
  window : t.stage.window = s.stage.window
  pointer : t.stage.pointer = (s.stage.window.firstStep, s.stage.window.firstGate)
  mode : t.mode = s.mode
  flavour : t.flavour = s.flavour
  clock : t.clock = s.clock
  link : t.link = s.link
  queues : t.queues = s.queues
  tide : t.tide = s.tide
  envelope : t.envelope = s.envelope
  arbitration : t.arbitration = s.arbitration
  definition : t.definition = s.definition

theorem State.blocksReset (pins : s.PinsFree) : BlocksReset s s.resetBlocks := by
  obtain ⟨⟨slots, units, queue, marks, table⟩, slot⟩ := (s.setLock none).foldl_resetSlot
  rw [table] at slot
  obtain ⟨gates, reset, gate⟩ := State.foldl_resetMove (s := allSlots.foldl State.resetSlot (s.setLock none))
    allGates_nodup fun g _ => by
      rw [table]
      exact pins g
  unfold State.resetBlocks
  rw [reset, table]
  refine ⟨slot, fun g => (gate g).trans ?_, rfl, rfl, rfl, rfl, rfl, rfl, rfl, rfl, rfl, rfl, rfl, rfl, rfl, rfl⟩
  rw [if_pos (mem_allGates g), table]
  rfl

theorem BlocksReset.atRest {t : State} (h : BlocksReset s t) (rest : s.AtRest) : t.AtRest ∧ t.gates = s.gates := by
  have same : ∀ g, t.gate g = s.gate g := fun g => (h.gate g).trans (GateRec.atReset_of_rest (rest g))
  exact ⟨fun g => same g ▸ rest g, Vector.ext fun i hi => same ⟨i, hi⟩⟩

theorem BlocksReset.not_atRest {t : State} (h : BlocksReset s t) (moving : (s.gate g).state.moving = true) :
    ¬t.AtRest := by
  intro rest
  have moves : (t.gate g).state.moving = true := by rw [h.gate, GateRec.moving_atReset, moving]
  exact absurd (rest g) (by simp [moves])

/-- The end of RESETTING: every queue is emptied and the mode is CONFIG (R151, R191). -/
def State.endReset (s : State) : State :=
  { s with
    mode := .config, flavour := none, queues := Vector.ofFn fun g => (s.queue g).emptied,
    link := s.link.take (.mode .config none (some .resetting) .warmReset s.clock), marks := ⟨false, false⟩ }

theorem State.queue_endReset (s : State) (g : GateNo) : s.endReset.queue g = (s.queue g).emptied := Vector.getElem_ofFn _

/-- A successful test of the end, with the round after it (R191). -/
theorem State.takeRound_of_resetEnd (mode : s.mode = .resetting) (rest : s.AtRest) :
    (s.resetEndTest.markReport false).takeRound = s.endReset := by
  have ends : s.mode = .resetting ∧ (allGates.all fun g => !(s.gate g).state.moving) = true :=
    ⟨mode, s.atRest_iff.2 rest⟩
  unfold State.resetEndTest
  rw [if_pos ends, State.takeRound_of_not_run (by simp [State.changeMode]), State.endReset, ← mode]
  rfl

/-- The test of the end while a gate moves (R191). -/
theorem State.takeRound_of_resetting (mode : s.mode = .resetting) (moves : ¬s.AtRest) :
    (s.resetEndTest.markReport false).takeRound = { s with marks := ⟨false, false⟩ } := by
  unfold State.resetEndTest
  rw [if_neg fun ends => moves (s.atRest_iff.1 ends.2), State.takeRound_of_not_run (by simp [mode])]
  rfl

/-- The event that leaves every gate at rest in RESETTING, with a report of the table, ends the mode (R189, R191). -/
theorem State.finish_of_resetEnd (mode : s.mode = .resetting) (report : s.marks.reportDue = true) (rest : s.AtRest) :
    s.finish = s.endReset := by
  have ends : (s.markReport false).resetEndTest.markReport false = (s.markReport false).resetEndTest := by
    unfold State.resetEndTest
    split <;> rfl
  unfold State.finish State.takeReport
  rw [if_pos report]
  simp only [State.mode_markReport, mode]
  rw [← ends]
  exact State.takeRound_of_resetEnd (s := s.markReport false) mode rest

/-! ### RESET (R190) -/

/-- The state in RESETTING whose blocks the start of warm reset then writes, the reply `r` placed (R190). -/
def State.inReset (s : State) (r : Reply) : State :=
  { s with
    mode := .resetting, flavour := none,
    link := (s.link.restarted r).take (.mode .resetting none (some s.mode) .request s.clock) }

/-- A warm reset tests its end once its start is done (R190). -/
theorem State.warmReset_eq {r : Reply} (pins : (s.inReset r).PinsFree) :
    ∃ t, BlocksReset (s.inReset r) t ∧ s.warmReset r = (t.resetEndTest.markReport false).takeRound :=
  ⟨_, State.blocksReset pins, rfl⟩

/-- RESET outside RESETTING is a warm reset with an OK reply (R190, R192). -/
theorem request_reset {n : Byte} (l : Listening s) (mode : s.mode ≠ .resetting) :
    request s n .reset = .next (s.warmReset (okReply n 0x06 [])) := by
  obtain ⟨released, room⟩ := l
  have test : s.modeTest .reset = none := State.modeTest_of_anyMode mode rfl (by simp)
  unfold request State.takeRequest State.whenRoom State.takeKnown
  simp only [released, Nat.not_le.2 room, test, Bool.false_eq_true, if_false, if_true]
  rfl

/-- The link port after the start of warm reset: the reply placed, and the MODE notice waiting where it is enabled. -/
theorem State.link_inReset (s : State) (r : Reply) :
    (s.inReset r).link.line.isSome = true ∧ (s.inReset r).link.enables = s.link.enables ∧
      (s.inReset r).link.notices =
        (if s.link.enables.get 9 then [.mode .resetting none (some s.mode) .request s.clock] else []) ∧
      if s.link.line.isSome then (s.inReset r).link.line = s.link.line ∧ (s.inReset r).link.replies = [r]
      else (s.inReset r).link.line = some (.reply r) ∧ (s.inReset r).link.replies = [] := by
  have busy := s.link.restarted_busy r
  obtain ⟨notices, enables, placed⟩ := s.link.restarted_keeps r
  obtain ⟨line, replies, enables'⟩ :=
    Link.take_busy_keeps busy (.mode .resetting none (some s.mode) .request s.clock)
  have taken := Link.take_of_busy busy (.mode .resetting none (some s.mode) .request s.clock)
  have index : (Notice.mode .resetting none (some s.mode) .request s.clock).kindIndex = 9 := rfl
  unfold State.inReset
  rw [line, replies, enables', enables]
  refine ⟨busy, rfl, ?_, placed⟩
  rw [taken, index, enables, notices]
  cases s.link.enables.get 9
  · exact notices
  · rfl

/-! ### The last order of RESETTING (R61, R189) -/

/-- Slot `k` has been dropped, and no slot being RUNNING the table has that to report; the queues stand. -/
def LastDropped (k : SlotNo) (s t : State) : Prop :=
  t.slot k = Slot.empty ∧ t.marks.reportDue = true ∧ ∀ h, t.queue h = s.queue h

theorem State.slots_freeSlot (s : State) (k : SlotNo) : (s.freeSlot k).slots = (s.setSlot k Slot.empty).slots := by
  have dropped : ((s.setSlot k Slot.empty).dropLock k).slots = (s.setSlot k Slot.empty).slots := by
    unfold State.dropLock
    split <;> rfl
  unfold State.freeSlot
  simp only
  split <;> exact dropped

theorem State.lastDropped_dropOrder (running : (s.slot k).state = .running)
    (alone : ∀ j, j ≠ k → (s.slot j).state ≠ .running) : LastDropped k s (s.dropOrder k) := by
  have freed : ∀ j, (s.freeSlot k).slot j = (s.setSlot k Slot.empty).slot j := fun j =>
    congrArg (fun v => v.get j) (s.slots_freeSlot k)
  have none : NoneRunning (s.freeSlot k) := by
    intro j
    rw [freed]
    by_cases e : k = j
    · subst e
      rw [State.slot_setSlot_self]
      simp [Slot.empty]
    · rw [s.slot_setSlot_ne _ e]
      exact alone j (Ne.symm e)
  have noted : s.dropOrder k = (s.freeSlot k).markReport true := by
    unfold State.dropOrder State.noteRunning
    rw [if_pos running, if_pos ((State.runningCount_eq_zero_iff _).2 none)]
  refine ⟨?_, by rw [noted]; rfl, fun h => ((s.touch_dropOrder k (m := fun _ => False)).others not_false).2⟩
  rw [noted]
  exact (freed k).trans (s.slot_setSlot_self k _)

theorem State.releaseUnit_keeps (s : State) (u : Option UnitNo) :
    (s.releaseUnit u).slots = s.slots ∧ (s.releaseUnit u).marks.reportDue = s.marks.reportDue ∧
      (s.releaseUnit u).queues = s.queues := by
  unfold State.releaseUnit
  split
  · exact ⟨rfl, rfl, rfl⟩
  · split <;> exact ⟨rfl, rfl, rfl⟩

/-- The end of a move under the reset mark drops its order (R61). -/
theorem State.lastDropped_endOrder {r : GateRec} (slot : r.move.slot = some k) (mark : r.move.resetMark = true)
    (running : (s.slot k).state = .running) (alone : ∀ j, j ≠ k → (s.slot j).state ≠ .running) (o : OrderOutcome)
    (c : Option TripCause) : LastDropped k s ((s.endOrder r o c).releaseUnit r.move.unit) := by
  have dropped : s.endOrder r o c = s.dropOrder k := by
    unfold State.endOrder
    simp only [slot, mark, if_true]
  obtain ⟨empty, report, queue⟩ := State.lastDropped_dropOrder running alone
  obtain ⟨slots, due, queues⟩ := (s.dropOrder k).releaseUnit_keeps r.move.unit
  rw [dropped]
  exact ⟨(congrArg (fun v => v.get k) slots).trans empty, due.trans report,
    fun h => (congrArg (fun v => v.get h) queues).trans (queue h)⟩

theorem State.lastDropped_park (slot : (s.gate g).move.slot = some k) (mark : (s.gate g).move.resetMark = true)
    (running : (s.slot k).state = .running) (alone : ∀ j, j ≠ k → (s.slot j).state ≠ .running) :
    LastDropped k s (s.park g) :=
  State.lastDropped_endOrder (s := s.setGate g _) slot mark running alone _ _

/-- The trip of a gate in LOCKING under the reset mark drops its order too (R33, R61). -/
theorem State.lastDropped_tripGate (st : (s.gate g).state = .locking) (slot : (s.gate g).move.slot = some k)
    (mark : (s.gate g).move.resetMark = true) (running : (s.slot k).state = .running)
    (alone : ∀ j, j ≠ k → (s.slot j).state ≠ .running) (c : TripCause) (f : BitVec 7) (e : Concern) :
    LastDropped k s (s.tripGate g c f e) := by
  unfold State.tripGate
  simp only [st]
  exact State.lastDropped_endOrder (s := (s.setGate g _).notify _) slot mark running alone _ _

/-- The event in which the last moving gate comes to rest in RESETTING, its order dropped, ends the mode (R191). -/
theorem State.finish_of_lastDropped {t : State} (touch : Touch (Eq g) s t) (mode : s.mode = .resetting)
    (others : ∀ h, h ≠ g → (s.gate h).state.moving = false) (rest : (t.gate g).state.moving = false)
    (dropped : LastDropped k s t) :
    t.finish.gate g = t.gate g ∧ t.finish.mode = .config ∧ t.finish.flavour = none ∧ t.finish.slot k = Slot.empty ∧
      ∀ h, t.finish.queue h = { s.queue h with points := [], readPos := (s.queue h).base } := by
  obtain ⟨empty, report, queue⟩ := dropped
  have atRest : t.AtRest := by
    intro h
    by_cases e : g = h
    · exact e ▸ rest
    · rw [(touch.others e).1]
      exact others h (Ne.symm e)
  rw [State.finish_of_resetEnd (touch.kept.mode.trans mode) report atRest]
  refine ⟨rfl, rfl, rfl, empty, fun h => ?_⟩
  rw [State.queue_endReset, queue]
  rfl

/-- The feedback that makes both pins of a gate in LOCKING read ENGAGED parks it (R31). -/
theorem State.pinEvent_of_locking {ch : Channel} (released : s.resetHeld = false) (st : (s.gate g).state = .locking)
    (change : (s.pinInput g).level ch ≠ .engaged)
    (pins : (s.setPinInput g ((s.pinInput g).put ch .engaged)).bothPins g .engaged = true) :
    s.pinEvent g ch .engaged = ((s.setPinInput g ((s.pinInput g).put ch .engaged)).park g).finish := by
  unfold State.pinEvent
  simp only [change, State.resetHeld_setPinInput, released, if_false, Bool.false_eq_true]
  unfold State.pinChanged
  simp only [State.gate_setPinInput, st, pins, if_true]

/-- The lock timer's expiry in LOCKING trips the gate (R32). -/
theorem State.lockExpired_of_locking (st : (s.gate g).state = .locking) (runs : (s.gate g).runs .lock = true) :
    s.lockExpired g =
      s.tripGate g .lockPin 0 (concernOf (s.pin g .l != .engaged) (s.pin g .r != .engaged)) := if_pos ⟨st, runs⟩

end Sys2Proof.Machine

namespace Sys2Proof.Proofs

open Sys2Proof.Machine Sys2Proof.Safety

/-- Settles O14: at rest the start of warm reset ends it too; else every moving gate goes to LOCKING under the reset mark,
and the parking or the trip of the last ends it. -/
theorem warmResetAtRestEnds : Obligations.WarmResetAtRestEnds := by
  unfold Obligations.WarmResetAtRestEnds
  refine ⟨fun n s l _ mode rest noneRuns => ?atRest, fun n s l _ mode moves pins => ?moving,
    fun g k s released _ mode st others slot mark running alone => ?last⟩
  case atRest =>
    have pins : (s.inReset (okReply n 0x06 [])).PinsFree := fun g moving =>
      absurd ((rest g).symm.trans moving) Bool.false_ne_true
    obtain ⟨busy, enables, _, placed⟩ := s.link_inReset (okReply n 0x06 [])
    obtain ⟨t, begun, warm⟩ := State.warmReset_eq pins
    obtain ⟨atRest, gates⟩ := begun.atRest rest
    rw [← begun.link] at busy enables placed
    obtain ⟨line, replies, enabled⟩ :=
      Link.take_busy_keeps busy (.mode .config none (some .resetting) .warmReset t.clock)
    rw [← line, ← replies] at placed
    refine ⟨_, request_reset l mode, ?_⟩
    rw [warm, State.takeRound_of_resetEnd begun.mode atRest]
    refine ⟨rfl, rfl, fun k => (begun.slot k).trans (if_neg (noneRuns k)), begun.lock, begun.runner, fun g => ?_, gates,
      begun.tide, begun.envelope, begun.clock, begun.arbitration, begun.definition, begun.steps,
      begun.window, begun.pointer, enabled.trans enables, placed⟩
    rw [State.queue_endReset]
    exact congrArg (fun v => (v.get g).emptied) begun.queues
  case moving =>
    obtain ⟨g, moves⟩ := moves
    obtain ⟨_, _, notices, placed⟩ := s.link_inReset (okReply n 0x06 [])
    obtain ⟨t, begun, warm⟩ := State.warmReset_eq (s := s) (r := okReply n 0x06 []) pins
    rw [← begun.link] at notices placed
    refine ⟨_, request_reset l mode, ?_⟩
    rw [warm, State.takeRound_of_resetting begun.mode (begun.not_atRest moves)]
    refine ⟨begun.mode, begun.flavour, begun.lock, begun.runner, fun g moving ne => ?_,
      fun g st => (begun.gate g).trans (GateRec.atReset_of_locking st),
      fun g rest => (begun.gate g).trans (GateRec.atReset_of_rest rest), begun.slot, begun.queues, begun.tide,
      begun.envelope, begun.clock, notices, placed⟩
    have locked := GateRec.atReset_of_moving moving ne
    exact (begun.gate g).symm ▸ locked
  case last =>
    intro ended
    refine ⟨fun ch change pins => ?parks, fun runs => ?trips⟩
    case parks =>
      have touch := (s.setPinInput g ((s.pinInput g).put ch .engaged)).touch_park g
      have parked := (s.setPinInput g ((s.pinInput g).put ch .engaged)).gate_park g
      obtain ⟨gate, ends⟩ := State.finish_of_lastDropped touch mode others (by rw [parked]; rfl)
        (State.lastDropped_park slot mark running alone)
      refine ⟨_, congrArg Host.Outcome.next (State.pinEvent_of_locking released st change pins), ?_, ends⟩
      rw [gate, parked]
      rfl
    case trips =>
      obtain ⟨engaged, tripped⟩ :=
        s.gate_tripGate g .lockPin 0 (concernOf (s.pin g .l != .engaged) (s.pin g .r != .engaged))
      obtain ⟨gate, ends⟩ := State.finish_of_lastDropped (s.touch_tripGate g _ _ _) mode others
        (by rw [tripped]; rfl) (State.lastDropped_tripGate st slot mark running alone _ _ _)
      refine ⟨_, event_released released fun s => s.lockExpired g, ?_⟩
      rw [State.lockExpired_of_locking st runs, gate, tripped]
      exact ⟨rfl, ends⟩

end Sys2Proof.Proofs
end

section
/-! The bounds of the link port through every command (R200, R202). Below a reply no operation adds to the reply area, so
a request that found room for its reply still finds it when its event has ended (`LinkHolds.serve`). -/

namespace Sys2Proof.Machine

open Sys2Proof.Safety

/-! ### The link port (R199 to R202) -/

/-- At most 16 notices and at most `c` replies wait at the link port. -/
def Link.Holds (c : Nat) (l : Link) : Prop := l.notices.length ≤ 16 ∧ l.replies.length ≤ c

theorem Link.Holds.decide {c : Nat} {l : Link} (h : l.Holds c) : l.decide.Holds c :=
  ⟨l.length_decide.1.trans h.1, l.length_decide.2.trans h.2⟩

theorem Link.Holds.decideIfIdle {c : Nat} {l : Link} (h : l.Holds c) : l.decideIfIdle.Holds c :=
  ⟨l.length_decideIfIdle.1.trans h.1, l.length_decideIfIdle.2.trans h.2⟩

/-- A notice is appended only where fewer than 16 wait (R202). -/
theorem Link.Holds.take {c : Nat} {l : Link} (h : l.Holds c) (m : Notice) : (l.take m).Holds c := by
  unfold Link.take
  split
  · exact h
  · split
    · exact h
    · next room =>
      have appended : ({ l with notices := l.notices ++ [m] } : Link).Holds c := by
        refine ⟨?_, h.2⟩
        rw [List.length_append, List.length_singleton]
        omega
      exact appended.decideIfIdle

/-- A reply takes one place of the reply area (R200). -/
theorem Link.Holds.place {c : Nat} {l : Link} (h : l.Holds c) (r : Reply) : (l.place r).Holds (c + 1) := by
  have placed : ({ l with replies := l.replies ++ [r] } : Link).Holds (c + 1) := by
    refine ⟨h.1, ?_⟩
    rw [List.length_append, List.length_singleton]
    exact Nat.succ_le_succ h.2
  exact placed.decideIfIdle

/-- A reply that starts before a notice of the same event puts that notice back, within the bound (R201, R202; log 7). -/
theorem Link.Holds.replyFirst {c : Nat} {l : Link} (h : l.Holds c) (r : Reply) (m : Notice) :
    (l.replyFirst r m).Holds c :=
  ⟨List.length_take_le _ _, h.2⟩

theorem Link.Holds.mono {b c : Nat} {l : Link} (h : l.Holds b) (le : b ≤ c) : l.Holds c := ⟨h.1, h.2.trans le⟩

/-- The bound of the link port in a state; with two replies it is the law of R200 and R202. -/
def LinkHolds (c : Nat) (s : State) : Prop := s.link.Holds c

theorem linkBounded_iff (s : State) : LinkBounded s ↔ LinkHolds 2 s := Iff.rfl

namespace LinkHolds

variable {c : Nat} {s t : State}

/-- The operations below the requests hand notices over and place no reply. -/
theorem touch {m : GateNo → Prop} (h : LinkHolds c s) (run : Touch m s t) : LinkHolds c t := by
  induction run with
  | trans _ _ first second => exact second (first h)
  | notify s m => exact Link.Holds.take h m
  | rewrite s k r _ =>
    unfold State.dropLock
    split
    · exact h
    · exact h
  | _ => exact h

theorem ite {a b : State} {p : Prop} [Decidable p] (ha : LinkHolds c a) (hb : LinkHolds c b) :
    LinkHolds c (if p then a else b) := by
  split
  · exact ha
  · exact hb

/-! ### Mode control and the end of an event -/

theorem changeMode (h : LinkHolds c s) (m : DeviceMode) (f : Option Flavour) (x : ModeCause) :
    LinkHolds c (s.changeMode m f x) := Link.Holds.take h _

theorem resetEndTest (h : LinkHolds c s) : LinkHolds c s.resetEndTest :=
  ite (changeMode (s := { s with queues := Vector.ofFn fun g => (s.queue g).emptied }) h _ _ _) h

theorem markReport (h : LinkHolds c s) (b : Bool) : LinkHolds c (s.markReport b) := h

theorem takeReport (h : LinkHolds c s) : LinkHolds c s.takeReport := by
  have cleared := h.markReport false
  unfold State.takeReport
  refine ite ?_ h
  simp only
  split
  · exact cleared.changeMode _ _ _
  · exact cleared.resetEndTest
  · exact cleared

theorem takeRound (h : LinkHolds c s) : LinkHolds c s.takeRound := h.touch (State.touch_takeRound (m := fun _ => True) s)

theorem finish (h : LinkHolds c s) : LinkHolds c s.finish := h.takeReport.takeRound

theorem toRun (h : LinkHolds c s) : LinkHolds c s.toRun := h.changeMode _ _ _

theorem beginHold (h : LinkHolds c s) : LinkHolds c s.beginHold := by
  have begun := h.changeMode .draining (some .hold) .request
  have ungranted := begun.touch (Touch.foldl (m := fun _ => True) State.touch_ungrant allSlots _)
  have cut := ungranted.touch (Touch.foldl (fun s g => (s.touch_cutStream g).any) allGates _)
  exact cut.touch (State.touch_noteRunning (m := fun _ => True) _)

theorem beginStop (h : LinkHolds c s) : LinkHolds c s.beginStop := (h.changeMode _ _ _).touch (State.touch_giveStops _)

theorem resetRunner (h : LinkHolds c s) : LinkHolds c s.resetRunner := h

theorem resetBlocks (h : LinkHolds c s) : LinkHolds c s.resetBlocks := by
  have slots := h.touch ((Touch.unlock (m := fun _ => True) s).trans (State.touch_resetSlots allSlots _ rfl))
  unfold State.resetBlocks
  exact (slots.touch (Touch.foldl (fun s g => (s.touch_resetMove g).any) allGates _)).resetRunner

theorem handOver (h : LinkHolds c s) (x : HeadChange) : LinkHolds c (s.handOver x) := by
  have followed : LinkHolds c (s.setEnvelope (s.envelope.follow x)) := h
  unfold State.handOver
  simp only
  exact ((followed.touch ((Touch.bump (m := fun _ => True) _).ite (.refl _))).touch
    (Touch.foldl (fun s g => (s.touch_checkFall g).any) _ _)).takeReport

theorem afterTide (h : LinkHolds c s) (res : Tide × List TideEvent × HeadChange) : LinkHolds c (s.afterTide res) :=
  (handOver (s := s.setTide res.1) h _).touch (Touch.foldl (fun s e => s.touch_handEvent e) _ _)

theorem gaugeSilence (h : LinkHolds c s) (g : Gauge) : LinkHolds c (s.gaugeSilence g) := by
  unfold State.gaugeSilence
  split
  · exact h.afterTide _
  · exact h

/-! ### Requests below their reply -/

theorem answer_ite {a b : Answer × State} {p : Prop} [Decidable p] (ha : LinkHolds c a.2) (hb : LinkHolds c b.2) :
    LinkHolds c (if p then a else b).2 := by
  split
  · exact ha
  · exact hb

theorem checked (h : LinkHolds c s) (l : List (Nat × Bool)) {a : Answer × State} (ha : LinkHolds c a.2) :
    LinkHolds c (s.checked l a).2 := by
  unfold State.checked
  split
  · exact h
  · exact ha

theorem named {α : Type} (h : LinkHolds c s) (x : Option α) {f : α → Answer × State} (hf : ∀ a, LinkHolds c (f a).2) :
    LinkHolds c (s.named x f).2 := by
  unfold State.named
  split
  · exact hf _
  · exact h

theorem taken (h : LinkHolds c s) : LinkHolds c s.taken.2 := h.finish

theorem withMode (h : LinkHolds c s) (st : Status) : LinkHolds c (State.withMode st s).2 := h

theorem serveRun (h : LinkHolds c s) : LinkHolds c s.serveRun.2 := by
  unfold State.serveRun
  split
  · exact answer_ite (h.toRun.finish.withMode _) (h.withMode _)
  · exact h.withMode _
  · exact h.withMode _
  · exact h.toRun.finish.withMode _
  · exact h.withMode _

theorem serveHold (h : LinkHolds c s) : LinkHolds c s.serveHold.2 := by
  unfold State.serveHold
  split
  · exact h.beginHold.finish.withMode _
  · exact h.withMode _
  · exact h.withMode _

theorem serveStopAll (h : LinkHolds c s) : LinkHolds c s.serveStopAll.2 := by
  unfold State.serveStopAll
  split
  · exact h.beginStop.finish.withMode _
  · exact (h.touch s.touch_giveStops).finish.withMode _
  · exact h.beginStop.finish.withMode _
  · exact (h.touch (s.touch_stopRunner (m := fun _ => True))).finish.withMode _
  · exact h.withMode _

theorem serveStopGate (h : LinkHolds c s) (g : Nat) : LinkHolds c (s.serveStopGate g).2 := by
  refine h.named _ fun g => ?_
  simp only
  split
  · exact h
  · exact h
  · exact h
  · exact (h.touch (State.touch_completeGranted (m := Eq g) _ _ _ _ _ _)).taken
  · exact (h.touch (s.touch_stopMove g)).taken

theorem serveClearTrip (h : LinkHolds c s) (g : Nat) : LinkHolds c (s.serveClearTrip g).2 := by
  refine h.named _ fun g => ?_
  simp only
  split
  · exact h
  · exact answer_ite (taken (s := (s.modGate g GateRec.cleared).openRound) h) h
  · exact h

theorem interfereIf (h : LinkHolds c s) (old : Slot) (k : SlotNo) : LinkHolds c (s.interfereIf old k) :=
  ite (h.touch (s.touch_interfere (m := fun _ => True) k)) h

theorem servePostOrder (h : LinkHolds c s) (k : Nat) (f : RawOrder) : LinkHolds c (s.servePostOrder k f).2 := by
  have posted : ∀ k g, LinkHolds c (s.postOrder k (orderOf f g)) := fun k g =>
    (h.touch ((s.touch_writeOrder k _ _).trans (State.touch_handBackOf (m := fun _ => True) _ _))).interfereIf _ _
  exact h.checked _ <| h.named _ fun k => h.named _ fun g =>
    answer_ite h <| answer_ite h <| answer_ite h <| answer_ite h (posted k g).taken

theorem serveWithdraw (h : LinkHolds c s) (k : Nat) : LinkHolds c (s.serveWithdraw k).2 := by
  have withdrawn : ∀ k, LinkHolds c (s.withdrawOrder k) := fun k =>
    (h.touch ((s.touch_freeSlot k).trans (State.touch_handBackOf (m := fun _ => True) _ _))).interfereIf _ _
  refine h.named _ fun k => ?_
  split
  · exact h.taken
  · exact h
  · exact (withdrawn k).taken

theorem takeLock (h : LinkHolds c s) (k : SlotNo) : LinkHolds c (s.takeLock k) := ite h h

theorem serveReadSlot (h : LinkHolds c s) (k : Nat) : LinkHolds c (s.serveReadSlot k).2 :=
  h.named _ fun k =>
    have locked := (h.touch (s.touch_releaseOther (m := fun _ => True) k)).takeLock k
    finish (s := ((s.releaseOther k).takeLock k).modSlot k Slot.markRead) locked

theorem serveService (h : LinkHolds c s) (u v : Nat) : LinkHolds c (s.serveService u v).2 := by
  refine h.named _ fun u => ?_
  have out := (h.touch (s.touch_takeOut (m := fun _ => True) u .maintenance)).taken
  have back : LinkHolds c (s.returnUnit u) := Link.Holds.take h _
  split
  · unfold State.serveServiceOut
    split
    · exact out
    · exact out
    · exact h.taken
    · exact h
  · unfold State.serveServiceIn
    split
    · exact answer_ite h back.taken
    · exact h.taken
  · exact h

theorem push (h : LinkHolds c s) (g : GateNo) (l : List Point) : LinkHolds c (s.push g l) := by
  have appended : LinkHolds c (s.setQueue g ((s.queue g).appended l)) := h
  unfold State.push
  simp only
  generalize ht : (if (s.queue g).rises ((s.queue g).appended l).level = true then _ else _ : State) = t
  have told : LinkHolds c t := ht ▸ ite (appended.touch (Touch.notify (m := Eq g) _ _)) appended
  exact ite (told.touch (State.touch_enterTravel _ g)) told

theorem servePush (h : LinkHolds c s) (g : Nat) (l : List RawPoint) : LinkHolds c (s.servePush g l).2 :=
  h.checked _ <| h.named _ fun g => answer_ite h <| answer_ite h <| h.checked _ (h.push g _).finish

theorem serveLoadWindow (h : LinkHolds c s) (f : RawWindow) : LinkHolds c (s.serveLoadWindow f).2 := by
  refine h.checked _ ?_
  split
  · exact taken (s := s.setStage _) h
  · exact h

theorem serveDefine (h : LinkHolds c s) (f : RawSequence) : LinkHolds c (s.serveDefine f).2 := by
  refine h.checked _ (answer_ite h ?_)
  split
  · exact taken (s := { s with definition := some _ }) h
  · exact h

theorem serveStart (h : LinkHolds c s) : LinkHolds c s.serveStart.2 := by
  unfold State.serveStart
  split
  · exact h
  · exact answer_ite (h.touch (s.touch_startSequence (m := fun _ => True) _)).taken h

theorem serveStop (h : LinkHolds c s) : LinkHolds c s.serveStop.2 := by
  unfold State.serveStop
  split
  · exact h
  · exact (h.touch (s.touch_stopRunner (m := fun _ => True))).taken

/-- Every request of a known kind, up to its reply (R199, R208). -/
theorem serve (h : LinkHolds c s) (r : Request) : LinkHolds c (s.serve r).2 := by
  cases r with
  | status | setClock | listSlots | readTide => exact h
  | setNotices | writeCells => exact h.checked _ h
  | configureArbiter | readGate | readQueue | readCells => exact h.named _ fun _ => h
  | reset => exact h.taken
  | run => exact h.serveRun
  | hold => exact h.serveHold
  | stopAll => exact h.serveStopAll
  | configureGate g p f =>
    exact answer_ite
      (h.named _ fun g => answer_ite h.taken (answer_ite h (taken (s := s.modGate g GateRec.removed) h)))
      (h.checked _ (h.named _ fun g => h.checked _ (taken (s := s.modGate g _) h)))
  | configureUnit u x => exact h.named _ fun u => h.checked _ (taken (s := s.modUnit u _) h)
  | setStepDwell => exact h.named _ fun _ => h.checked _ (taken (s := s.setStage _) h)
  | configureTide f => exact h.checked _ (taken (s := s.setTide _) h)
  | configureEnvelope b x => exact h.checked _ (taken (s := s.setEnvelope _) h)
  | configureThreshold f => exact h.checked _ (h.named _ fun _ => taken (s := s.setTide _) h)
  | configureQueue f =>
    exact h.checked _ (h.named _ fun g => answer_ite h (answer_ite h (taken (s := s.setQueue g _) h)))
  | postOrder k f => exact h.servePostOrder k f
  | withdrawOrder k => exact h.serveWithdraw k
  | readSlot k => exact h.serveReadSlot k
  | unlock =>
    exact h.named _ fun k => answer_ite (h.touch (s.touch_releaseLock (m := fun _ => True) k)).taken h.taken
  | stopGate g => exact h.serveStopGate g
  | clearTrip g => exact h.serveClearTrip g
  | setUnitService u v => exact h.serveService u v
  | pushPoints g l => exact h.servePush g l
  | peekPoints => exact h.checked _ (h.named _ fun _ => answer_ite h h)
  | flushPoints => exact h.named _ fun g => answer_ite h (answer_ite h (taken (s := s.setQueue g _) h))
  | setLoadWindow f => exact h.serveLoadWindow f
  | defineSequence f => exact h.serveDefine f
  | startSequence => exact h.serveStart
  | stopSequence => exact h.serveStop

/-! ### Frames (R197 to R201) -/

/-- The reply of an event takes one place (R200). -/
theorem reply (h : LinkHolds c s) (idle : Bool) (r : Reply) : LinkHolds (c + 1) (s.reply idle r) := by
  have placed : (s.link.place r).Holds (c + 1) := Link.Holds.place h r
  unfold State.reply
  split
  · next m _ =>
    have first : (s.link.replyFirst r m).Holds (c + 1) := (Link.Holds.replyFirst h r m).mono (Nat.le_succ c)
    show Link.Holds (c + 1) (if _ then _ else _)
    split
    · exact first
    · exact placed
  · exact placed

/-- A warm reset places its reply in a reply area that it has emptied (R190). -/
theorem warmReset (s : State) (r : Reply) : LinkHolds 1 (s.warmReset r) := by
  have emptied : ({ s.link with replies := [], notices := [] } : Link).Holds 0 := ⟨Nat.zero_le _, le_rfl⟩
  have placed : LinkHolds 1 ((s.setLink { s.link with replies := [], notices := [] }).placeReply r) := emptied.place r
  exact ((placed.changeMode .resetting none .request).resetBlocks.resetEndTest.markReport false).takeRound

theorem modeRefusal (h : LinkHolds c s) (r : Request) (st : Status) : LinkHolds c (s.modeRefusal r st).2 := by
  unfold State.modeRefusal
  split
  · exact h
  · exact h
  · exact h
  · exact h

/-- What stage 1 of R199 lets in has found room for its reply. -/
theorem whenRoom {f : State} (h : LinkHolds 2 s) (hf : LinkHolds 1 s → LinkHolds 2 f) : LinkHolds 2 (s.whenRoom f) := by
  unfold State.whenRoom
  split
  · exact h
  · next room => exact hf ⟨h.1, Nat.le_of_lt_succ (Nat.not_le.1 room)⟩

theorem takeRequest (h : LinkHolds 2 s) (n : Byte) (r : Request) : LinkHolds 2 (s.takeRequest n r) := by
  refine h.whenRoom fun room => ?_
  unfold State.takeKnown
  simp only
  split
  · exact (room.modeRefusal r _).reply _ _
  · exact ite (Link.Holds.mono (warmReset s _) (Nat.le_succ 1)) ((room.serve r).reply _ _)

theorem takeFrame (h : LinkHolds 2 s) (kind n : Byte) (body : List Byte) : LinkHolds 2 (s.takeFrame kind n body) := by
  have refused : ∀ st, LinkHolds 2 (s.refuseFrame n kind st) := fun st =>
    h.whenRoom fun room => Link.Holds.place room _
  unfold State.takeFrame
  split
  · exact refused _
  · exact ite (h.takeRequest n _) (refused _)

/-- A byte from the host, with the request that it may complete (R197, R199). -/
theorem receive (h : LinkHolds 2 s) (b : Byte) (stopHigh : Bool) : LinkHolds 2 (s.receive b stopHigh) := by
  have complete : ∀ l, LinkHolds 2 (s.completeFrame l) := fun l =>
    ite (takeFrame (s := s.setLink s.link.waiting) h _ _ _) h
  unfold State.receive
  split
  · split
    · exact h
    · exact h
  · split
    · exact ite h h
    · exact ite h (ite (complete _) h)

theorem gapExpired (h : LinkHolds c s) : LinkHolds c s.gapExpired := by
  unfold State.gapExpired
  split
  · exact h
  · exact h

theorem frameFinished (h : LinkHolds c s) : LinkHolds c s.frameFinished := by
  unfold State.frameFinished
  split
  · exact Link.Holds.decide h
  · exact h

/-! ### Field events -/

theorem pinEvent (h : LinkHolds c s) (g : GateNo) (ch : Channel) (pos : PinPos) : LinkHolds c (s.pinEvent g ch pos) := by
  have put : LinkHolds c (s.setPinInput g ((s.pinInput g).put ch pos)) := h
  exact ite h (ite put (put.touch (State.touch_pinChanged _ _ _)).finish)

theorem readyEvent (h : LinkHolds c s) (u : UnitNo) (ready : Bool) : LinkHolds c (s.readyEvent u ready) := by
  have put : LinkHolds c (s.setUnitInput u { s.unitInput u with ready := ready }) := h
  exact ite h (ite put (ite (put.touch (State.touch_unitReady (m := fun _ => True) _ u)).finish put))

theorem faultEvent (h : LinkHolds c s) (u : UnitNo) : LinkHolds c (s.faultEvent u) := by
  have put : LinkHolds c (s.setUnitInput u { s.unitInput u with fault := true }) := h
  exact ite h (ite put (put.touch (State.touch_faultAsserted _ u)).finish)

theorem lineUpDone (h : LinkHolds c s) (u : UnitNo) : LinkHolds c (s.lineUpDone u) := by
  unfold State.lineUpDone
  split
  · exact h.touch (s.touch_linedUp u _ _)
  · exact h

theorem linedEvent (h : LinkHolds c s) (u : UnitNo) (lined : Bool) : LinkHolds c (s.linedEvent u lined) := by
  have put : LinkHolds c (s.setUnitInput u { s.unitInput u with lined := lined }) := h
  exact ite h (ite put (ite (put.lineUpDone u).finish put))

/-! ### The step -/

theorem coldReset (s : State) (strap : LinkRate) : LinkHolds c (s.coldReset strap) := by
  have cold : (Link.cold strap).Holds c := ⟨Nat.zero_le _, Nat.zero_le _⟩
  exact cold.take _

theorem simple (h : LinkHolds c s) {f : State → State} (hf : LinkHolds c (f s)) (e : simple s f = .next t) :
    LinkHolds c t := by
  cases e
  exact ite h hf

/-- An event is run to its end, or ignored while the reset line is held (R185). -/
theorem event (h : LinkHolds c s) {f : State → State} (hf : LinkHolds c (f s)) (e : event s f = .next t) :
    LinkHolds c t := by
  cases e
  exact ite h hf.finish

theorem request (h : LinkHolds 2 s) {n : Byte} {r : Request} (e : request s n r = .next t) : LinkHolds 2 t := by
  cases e
  exact ite h (h.takeRequest n r)

/-- Every command. -/
theorem exec (h : LinkHolds 2 s) {i : Instr} (e : exec i s = .next t) : LinkHolds 2 t := by
  cases i with
  | resetLineAsserted | faultClearing =>
    cases e
    exact h
  | coldReset strap =>
    cases e
    exact coldReset s strap
  | weirClockTick => exact h.simple (f := fun s => { s with clock := s.clock + 1 }) h e
  | receivedByte b stopHigh => exact h.simple (f := fun s => s.receive b stopHigh) (h.receive b stopHigh) e
  | gapTimerExpiry => exact h.simple h.gapExpired e
  | frameFinished => exact h.simple h.frameFinished e
  | status | setClock | run | hold | stopAll | reset | setNotices | configureGatePresent | configureGateAbsent
  | configureUnit | configureArbiter | configureTide | configureThreshold | configureEnvelope | configureQueue
  | postOrder | withdrawOrder | readSlot | unlock | listSlots | readGate | stopGate | clearTrip | setUnitServiceOut
  | setUnitServiceIn | readTide | pushPoints | peekPoints | flushPoints | readQueue | setLoadWindow | writeCells
  | setStepDwell | readCells | defineSequence | startSequence | stopSequence => exact h.request e
  | encoderSample g ch count pressure elapsed =>
    exact h.event (f := fun s => s.encoderSample g ch count pressure elapsed)
      (h.touch (s.touch_encoderSample g ch count pressure elapsed)) e
  | encoderSilenceExpiry g x =>
    exact h.event (f := fun s => s.encoderSilence g x) (h.touch (s.touch_encoderSilence g x)) e
  | lockPinFeedback g ch pos =>
    cases e
    exact h.pinEvent g ch pos
  | releaseTimerExpiry g => exact h.event (h.touch (s.touch_releaseExpired g)) e
  | buildTimerExpiry g => exact h.event (h.touch (s.touch_buildExpired g)) e
  | stallTimerExpiry g x => exact h.event (h.touch (s.touch_stallExpired g x)) e
  | settleTimerExpiry g => exact h.event (h.touch (s.touch_settleExpired g)) e
  | lockTimerExpiry g => exact h.event (h.touch (s.touch_lockExpired g)) e
  | tripLockTimerExpiry g => exact h.event (h.touch (s.touch_tripLockExpired g)) e
  | holdTimerExpiry g => exact h.event (h.touch (s.touch_holdExpired g)) e
  | readyChange u ready =>
    cases e
    exact h.readyEvent u ready
  | faultAssertion u =>
    cases e
    exact h.faultEvent u
  | linedUpChange u lined =>
    cases e
    exact h.linedEvent u lined
  | startTimerExpiry u =>
    exact h.event (f := fun s => s.startExpired u) (ite (h.touch (s.touch_startFailed (m := fun _ => True) u)) h) e
  | lineUpTimerExpiry u =>
    exact h.event (f := fun s => s.lineUpExpired u) (ite (h.touch (s.touch_lineUpFailed (m := fun _ => True) u)) h) e
  | idleTimerExpiry u =>
    have off : LinkHolds 2 (s.idleStopped u) := h
    exact h.event (f := fun s => s.idleExpired u) (ite off h) e
  | gaugeSample g x => exact h.event (f := fun s => s.gaugeSample g x) (h.afterTide _) e
  | gaugeSilenceExpiry g => exact h.event (f := fun s => s.gaugeSilence g) (h.gaugeSilence g) e
  | postingAttempt => exact h.event (h.touch (State.touch_dueAttempt (m := fun _ => True) s)) e
  | runnerCollection k => exact h.event (h.touch (State.touch_collect (m := fun _ => True) s k)) e
  | dwellTimerExpiry => exact h.event (h.touch (State.touch_dwellEvent (m := fun _ => True) s)) e

end LinkHolds

end Sys2Proof.Machine

namespace Sys2Proof.Proofs

open Sys2Proof.Machine Sys2Proof.Safety

/-- Settles O53: the front command keeps the bounds, and an empty queue idles. -/
theorem stepKeepsLinkBounded : Obligations.StepKeepsLinkBounded := by
  unfold Obligations.StepKeepsLinkBounded
  simp only [linkBounded_iff]
  intro s t h e
  unfold step at e
  split at e
  · cases e
    exact h
  · next i rest _ => exact LinkHolds.exec (s := { s with pending := rest }) h e

end Sys2Proof.Proofs
end

section
/-! The receiver (R195 to R197), frames (R196, R198, R199), and what the transmit side does with a notice, a reply and
a finished frame (R199 to R202). -/

namespace Sys2Proof.Machine

open Sys2Proof.Safety

variable {s : State}

/-! ### One byte (R195, R197) -/

theorem simple_released (released : s.resetHeld = false) (f : State → State) : simple s f = .next (f s) := by
  unfold simple
  rw [released]
  rfl

theorem exec_receivedByte (released : s.resetHeld = false) (b : Byte) (stopHigh : Bool) :
    exec (.receivedByte b stopHigh) s = .next (s.receive b stopHigh) :=
  simple_released released fun s => s.receive b stopHigh

theorem State.receive_low_of_waiting (rx : s.link.rx = .waiting) (b : Byte) : s.receive b false = s.linkError := by
  unfold State.receive
  rw [if_pos rfl, rx]

theorem State.receive_low_of_opened (rx : s.link.rx = .opened) (b : Byte) :
    s.receive b false = s.setLink s.link.abandon := by
  unfold State.receive
  rw [if_pos rfl, rx]

theorem State.receive_of_waiting (rx : s.link.rx = .waiting) (b : Byte) :
    s.receive b true =
      if b = 0xA7 then s.setLink { s.link with rx := .opened, buffer := [], gap := some Config.gapTime } else s := by
  unfold State.receive
  rw [if_neg (by decide), rx]
  rfl

theorem State.receive_of_opened (rx : s.link.rx = .opened) (b : Byte) : s.receive b true = s.openByte b := by
  unfold State.receive
  rw [if_neg (by decide), rx]

/-! ### A byte of an open frame (R197) -/

theorem State.openByte_too_long {b : Byte} (first : s.link.buffer = []) (long : 250 < b.toNat) :
    s.openByte b = s.setLink s.link.abandon := if_pos ⟨first, long⟩

theorem State.openByte_stored {b : Byte} (length : ¬(s.link.buffer = [] ∧ 250 < b.toNat))
    (more : s.link.buffer.length + 1 ≠ frameSize (s.link.buffer ++ [b])) :
    s.openByte b = s.setLink { s.link with buffer := s.link.buffer ++ [b], gap := some Config.gapTime } := by
  unfold State.openByte
  simp only [List.length_append, List.length_singleton]
  rw [if_neg length, if_neg more]

/-- A frame is longer than its length byte, so a byte that completes one is not a length. -/
theorem State.openByte_last {b : Byte} (last : s.link.buffer.length + 1 = frameSize (s.link.buffer ++ [b])) :
    s.openByte b = s.completeFrame (s.link.buffer ++ [b]) := by
  have length : ¬(s.link.buffer = [] ∧ 250 < b.toNat) := by
    rintro ⟨first, -⟩
    rw [first, frameSize, List.length_nil] at last
    omega
  unfold State.openByte
  simp only [List.length_append, List.length_singleton]
  rw [if_neg length, if_pos last]

/-- The CRC matches: the frame is taken by a receiver that is WAITING again (R197, R199). -/
theorem State.completeFrame_of_match {whole : List Byte}
    (crc : whole.drop (byteAt whole 0 + 3) = encWord (crc16 (whole.take (byteAt whole 0 + 3)))) :
    s.completeFrame whole = (s.setLink s.link.waiting).takeFrame (whole.getD 1 0) (whole.getD 2 0)
      ((whole.take (byteAt whole 0 + 3)).drop 3) := if_pos crc.symm

theorem State.completeFrame_of_mismatch {whole : List Byte}
    (crc : whole.drop (byteAt whole 0 + 3) ≠ encWord (crc16 (whole.take (byteAt whole 0 + 3)))) :
    s.completeFrame whole = s.setLink s.link.abandon := if_neg (Ne.symm crc)

theorem State.gapExpired_of_running (rx : s.link.rx = .opened) (gap : s.link.gap.isSome = true) :
    s.gapExpired = s.setLink s.link.abandon := by
  obtain ⟨t, gap⟩ := Option.isSome_iff_exists.1 gap
  unfold State.gapExpired
  rw [rx, gap]

/-! ### A frame byte by byte (R196 to R198) -/

/-- An open frame of which `buffer` has been received. -/
def State.receiving (s : State) (buffer : List Byte) : State :=
  s.setLink { s.link with rx := .opened, buffer := buffer, gap := some Config.gapTime }

theorem receiveAll_cons (b : Byte) (l : List Byte) (s : State) :
    receiveAll (b :: l) s = receiveAll l (s.receive b true) := rfl

theorem receiveAll_append (l m : List Byte) (s : State) : receiveAll (l ++ m) s = receiveAll m (receiveAll l s) :=
  List.foldl_append

/-- The bytes behind the length byte are stored as long as the frame is not complete. -/
theorem receiveAll_receiving (b : Byte) (l m : List Byte) (more : (l ++ m).length + 1 < b.toNat + 5) :
    receiveAll m (s.receiving (b :: l)) = s.receiving (b :: (l ++ m)) := by
  induction m generalizing l with
  | nil => rw [List.append_nil]; rfl
  | cons x m ih =>
    rw [List.append_cons] at more ⊢
    have short : (s.receiving (b :: l)).link.buffer.length + 1 ≠
        frameSize ((s.receiving (b :: l)).link.buffer ++ [x]) := by
      show (b :: l).length + 1 ≠ b.toNat + 5
      simp only [List.length_append, List.length_cons, List.length_nil] at more ⊢
      omega
    have stored : (s.receiving (b :: l)).receive x true = s.receiving (b :: (l ++ [x])) :=
      (State.receive_of_opened rfl x).trans (State.openByte_stored (fun h => List.cons_ne_nil b l h.1) short)
    rw [receiveAll_cons, stored, ih _ more]

/-- The start byte and a length within the bound open a frame. -/
theorem receiveAll_start (rx : s.link.rx = .waiting) {b : Byte} (bound : b.toNat ≤ 250) :
    receiveAll [0xA7, b] s = s.receiving [b] := by
  have opened : s.receive 0xA7 true = s.receiving [] := (State.receive_of_waiting rx _).trans (if_pos rfl)
  have more : (s.receiving []).link.buffer.length + 1 ≠ frameSize ((s.receiving []).link.buffer ++ [b]) := by
    show 1 ≠ b.toNat + 5
    omega
  have stored : (s.receiving []).receive b true = s.receiving [b] :=
    (State.receive_of_opened rfl b).trans (State.openByte_stored (fun h => absurd h.2 (Nat.not_lt.2 bound)) more)
  rw [receiveAll_cons, opened, receiveAll_cons, stored]
  rfl

/-- The length byte carries the length of a body within the bound (R196). -/
theorem toNat_length {body : List Byte} (bound : body.length ≤ 250) :
    (BitVec.ofNat 8 body.length).toNat = body.length := by
  rw [BitVec.toNat_ofNat, Nat.mod_eq_of_lt (by omega)]

/-- A WAITING receiver with nothing in its buffer and no gap timer running is as a frame's end leaves it (R197). -/
theorem State.waiting_of_idle (rx : s.link.rx = .waiting) (buffer : s.link.buffer = []) (gap : s.link.gap = none)
    (l : List Byte) : (s.receiving l).setLink (s.receiving l).link.waiting = s := by
  have same : ({ s.link with rx := .waiting, buffer := [], gap := none } : Link) = s.link := by
    rw [← rx, ← buffer, ← gap]
  exact congrArg s.setLink same

/-- The last byte of a frame of the model's own making completes it and finds its CRC right (R196, R198). -/
theorem State.receive_last (rx : s.link.rx = .waiting) (buffer : s.link.buffer = []) (gap : s.link.gap = none)
    (kind n : Byte) {body : List Byte} (bound : body.length ≤ 250) (hi lo : Byte)
    (crc : [hi, lo] = encWord (crc16 (BitVec.ofNat 8 body.length :: kind :: n :: body))) :
    (s.receiving (BitVec.ofNat 8 body.length :: kind :: n :: (body ++ [hi]))).receive lo true =
      s.takeFrame kind n body := by
  have size := toNat_length bound
  generalize hb : BitVec.ofNat 8 body.length = b at size crc ⊢
  have whole : (b :: kind :: n :: (body ++ [hi])) ++ [lo] = (b :: kind :: n :: body) ++ [hi, lo] := by simp
  have covered : (b :: kind :: n :: body).length = byteAt ((b :: kind :: n :: body) ++ [hi, lo]) 0 + 3 := by
    show body.length + 3 = b.toNat + 3
    rw [size]
  have take := List.take_left' (l₂ := [hi, lo]) covered
  have drop := List.drop_left' (l₂ := [hi, lo]) covered
  have last : (s.receiving (b :: kind :: n :: (body ++ [hi]))).link.buffer.length + 1 =
      frameSize ((s.receiving (b :: kind :: n :: (body ++ [hi]))).link.buffer ++ [lo]) := by
    show (b :: kind :: n :: (body ++ [hi])).length + 1 = b.toNat + 5
    simp only [List.length_cons, List.length_append, List.length_nil, size]
  rw [State.receive_of_opened rfl, State.openByte_last last]
  show State.completeFrame _ ((b :: kind :: n :: (body ++ [hi])) ++ [lo]) = _
  rw [whole, State.completeFrame_of_match (by rw [take, drop, crc]), take, s.waiting_of_idle rx buffer gap]
  rfl

/-- A frame of any kind, number and body within the bound, received byte by byte (R196 to R199). -/
theorem receiveAll_frameBytes (rx : s.link.rx = .waiting) (buffer : s.link.buffer = []) (gap : s.link.gap = none)
    (kind n : Byte) {body : List Byte} (bound : body.length ≤ 250) :
    receiveAll (frameBytes kind n body) s = s.takeFrame kind n body := by
  have size := toNat_length bound
  let crc := crc16 (BitVec.ofNat 8 body.length :: kind :: n :: body)
  have bytes : frameBytes kind n body = [0xA7, BitVec.ofNat 8 body.length] ++
      ((kind :: n :: (body ++ [crc.extractLsb' 8 8])) ++ [crc.extractLsb' 0 8]) := by
    simp [frameBytes, encWord, crc]
  rw [bytes, receiveAll_append, receiveAll_append, receiveAll_start rx (by rw [size]; exact bound),
    receiveAll_receiving]
  · exact s.receive_last rx buffer gap kind n bound _ _ rfl
  · simp only [List.nil_append, List.length_cons, List.length_append, List.length_nil, size]
    omega

/-! ### Frames that are refused (R199, R205, R208) -/

/-- A kind is that of a request exactly from 01 to 23 hexadecimal (R208). -/
theorem requestOf_eq_none_iff (code : Nat) (body : List Byte) :
    requestOf code body = none ↔ code = 0 ∨ 0x23 < code := by
  unfold requestOf
  split
  case h_36 =>
    simp only [imp_false, true_iff] at *
    omega
  all_goals simp

/-- The reply by which the link port refuses a frame, or the discard with two replies waiting (R199). -/
theorem State.refuseFrame_eq (s : State) (n kind : Byte) (st : Status) :
    s.refuseFrame n kind st =
      if 2 ≤ s.link.replies.length then { s with link := { s.link with linkError := true } }
      else s.placeReply { number := n, kind := kind, status := st, detail := 0, data := [] } := rfl

theorem State.takeFrame_unknownKind {kind : Byte} (unknown : kind.toNat = 0 ∨ 0x23 < kind.toNat) (n : Byte)
    (body : List Byte) : s.takeFrame kind n body = s.refuseFrame n kind .unknownKind := by
  unfold State.takeFrame
  rw [(requestOf_eq_none_iff _ body).2 unknown]

/-- A request whose body has not the length its kind requires (R199). -/
theorem State.takeFrame_badLength {kind : Byte} {body : List Byte} (known : ¬(kind.toNat = 0 ∨ 0x23 < kind.toNat))
    (length : requiredLength kind.toNat body ≠ some body.length) (n : Byte) :
    s.takeFrame kind n body = s.refuseFrame n kind .badLength := by
  unfold State.takeFrame
  split
  · next none => exact absurd ((requestOf_eq_none_iff _ _).1 none) known
  · exact if_neg length

theorem byteAt_eq_zero_iff (b : List Byte) (i : Nat) : byteAt b i = 0 ↔ b.getD i 0 = 0 :=
  (BitVec.toNat_inj (y := 0#8))

/-- The required length of CONFIGURE_GATE, by its presence byte (R11, R199). -/
theorem requiredLength_configureGate {b : List Byte}
    (h : b.length < 2 ∨ b.length ≠ if b.getD 1 0 = 0 then 2 else 33) : requiredLength 0x08 b ≠ some b.length := by
  simp only [← byteAt_eq_zero_iff] at h
  show (if b.length ≤ 1 then none else if byteAt b 1 = 0 then some 2 else some 33) ≠ some b.length
  split
  · exact (Option.some_ne_none _).symm
  · rw [← apply_ite some]
    rintro required
    have := Option.some.inj required
    omega

/-- The required length of POST_ORDER, by its presence bytes; `i` is the place of the second (R199, R207). -/
theorem requiredLength_postOrder {b : List Byte} {i : Nat} (second : i = if b.getD 3 0 = 0 then 7 else 9)
    (h : b.length ≠ i + if b.getD i 0 = 0 then 4 else 6) : requiredLength 0x0F b ≠ some b.length := by
  have place : afterOpt b 3 2 + 3 = i := by
    simp only [second, afterOpt, byteAt_eq_zero_iff]
    split <;> rfl
  have length : afterOpt b i 2 + 3 = i + if b.getD i 0 = 0 then 4 else 6 := by
    simp only [afterOpt, byteAt_eq_zero_iff]
    split <;> rfl
  show orderLength b ≠ _
  unfold orderLength
  simp only [place]
  split
  · exact (Option.some_ne_none _).symm
  · exact fun required => h (length ▸ (Option.some.inj required).symm)

/-- The required length of PUSH_POINTS, by its number of points (R147, R199). -/
theorem requiredLength_pushPoints {b : List Byte} (h : b.length < 2 ∨ b.length ≠ 2 + 5 * (b.getD 1 0).toNat) :
    requiredLength 0x19 b ≠ some b.length := by
  show (if b.length ≤ 1 then none else some (2 + 5 * (b.getD 1 0).toNat)) ≠ some b.length
  split
  · exact (Option.some_ne_none _).symm
  · next long => exact fun required => h.elim (by omega) fun ne => ne (Option.some.inj required).symm

/-- The required length of WRITE_CELLS, by its number of values (R167, R199). -/
theorem requiredLength_writeCells {b : List Byte} (h : b.length = 0 ∨ b.length ≠ 1 + 2 * (b.getD 0 0).toNat) :
    requiredLength 0x1E b ≠ some b.length := by
  show (if b.length = 0 then none else some (1 + 2 * (b.getD 0 0).toNat)) ≠ some b.length
  split
  · exact (Option.some_ne_none _).symm
  · next nonempty => exact fun required => h.elim nonempty fun ne => ne (Option.some.inj required).symm

/-- The requests whose body has one length, with that length (R208). -/
theorem requiredLength_fixed : ∀ p ∈ [(0x01, 0), (0x02, 4), (0x03, 0), (0x04, 0), (0x05, 0), (0x06, 0), (0x07, 10),
    (0x09, 3), (0x0A, 1), (0x0B, 13), (0x0C, 7), (0x0D, 110), (0x0E, 7), (0x10, 1), (0x11, 1), (0x12, 1), (0x13, 0),
    (0x14, 1), (0x15, 1), (0x16, 1), (0x17, 2), (0x18, 0), (0x1A, 3), (0x1B, 1), (0x1C, 1), (0x1D, 5), (0x1F, 3),
    (0x20, 1), (0x21, 8), (0x22, 0), (0x23, 0)],
    ¬(p.1 = 0 ∨ 0x23 < p.1) ∧ ∀ b, requiredLength p.1 b = some p.2 := by
  intro p known
  fin_cases known <;> exact ⟨by decide, fun _ => rfl⟩

/-! ### Notices (R201, R202) -/

theorem Link.take_of_disabled {l : Link} {m : Notice} (disabled : l.enables.get m.kindIndex = false) : l.take m = l :=
  if_pos disabled

theorem Link.take_of_full {l : Link} {m : Notice} (enabled : l.enables.get m.kindIndex = true)
    (full : 16 ≤ l.notices.length) : l.take m = { l with noticesLost := true } := by
  unfold Link.take
  rw [if_neg (by rw [enabled]; decide), if_pos full]

/-- An enabled notice with room joins the queue behind a frame that is being sent. -/
theorem Link.take_of_room {l : Link} {m : Notice} (enabled : l.enables.get m.kindIndex = true)
    (room : l.notices.length < 16) (busy : l.line.isSome = true) :
    l.take m = { l with notices := l.notices ++ [m] } := by
  rw [Link.take_of_busy busy, if_neg (by rw [enabled]; decide), if_neg (Nat.not_le.2 room)]

/-! ### Replies (R199 to R201) -/

theorem Link.place_of_busy {l : Link} (busy : l.line.isSome = true) (r : Reply) :
    l.place r = { l with replies := l.replies ++ [r] } := by
  obtain ⟨f, line⟩ := Option.isSome_iff_exists.1 busy
  simp only [Link.place, Link.decideIfIdle, line]

/-- On an idle line with no reply waiting the reply starts at once (R201). -/
theorem Link.place_of_empty {l : Link} (idle : l.line = none) (none_waits : l.replies = []) (r : Reply) :
    l.place r = { l with line := some (.reply r) } := by
  simp [Link.place, Link.decideIfIdle, Link.decide, idle, none_waits]

/-- On an idle line the oldest of the replies that wait starts, and the new one waits behind the rest (R201). -/
theorem Link.place_of_idle {l : Link} {q : Reply} {rest : List Reply} (idle : l.line = none)
    (waiting : l.replies = q :: rest) (r : Reply) :
    l.place r = { l with line := some (.reply q), replies := rest ++ [r] } := by
  simp [Link.place, Link.decideIfIdle, Link.decide, idle, waiting]

theorem State.reply_of_no_notice (idle : Bool) (r : Reply) (line : ∀ m, s.link.line ≠ some (.notice m)) :
    s.reply idle r = s.placeReply r := by
  unfold State.reply
  split
  · next m h => exact absurd h (line m)
  · rfl

/-- A notice has started on a line that was idle: the reply follows it, or takes its place (R201; log 7). -/
theorem State.reply_of_notice {m : Notice} (line : s.link.line = some (.notice m)) (r : Reply) :
    s.reply true r = { s.placeReply r with freeCount := s.freeCount + 1 } ∨
      s.reply true r = { s with freeCount := s.freeCount + 1, link := s.link.replyFirst r m } := by
  have chosen : s.reply true r =
      (s.setLink (if Config.replyFirst s.freeCount then s.link.replyFirst r m else s.link.place r)).bump := by
    unfold State.reply
    rw [line]
  rw [chosen]
  split
  · exact .inr rfl
  · exact .inl rfl

/-- The transmit decision after a frame (R201). -/
theorem Link.decide_eq (l : Link) :
    l.decide = match l.replies, l.notices with
      | r :: rest, _ => { l with line := some (.reply r), replies := rest }
      | [], m :: rest => { l with line := some (.notice m), notices := rest }
      | [], [] => { l with line := none } := by
  unfold Link.decide
  cases l.replies with
  | cons r rest => rfl
  | nil =>
    cases l.notices with
    | cons m rest => rfl
    | nil => rfl

theorem exec_frameFinished (released : s.resetHeld = false) (busy : s.link.line.isSome = true) :
    exec .frameFinished s = .next (s.setLink s.link.decide) := by
  obtain ⟨f, line⟩ := Option.isSome_iff_exists.1 busy
  refine (simple_released released State.frameFinished).trans (congrArg _ ?_)
  unfold State.frameFinished
  rw [line]

end Sys2Proof.Machine

namespace Sys2Proof.Proofs

open Sys2Proof.Machine Sys2Proof.Safety

/-- Settles O6: by the receiver's state, the stop bit, and the place of the byte in its frame. -/
theorem receiverBytesAndGap : Obligations.ReceiverBytesAndGap := by
  unfold Obligations.ReceiverBytesAndGap
  refine ⟨fun s released => ⟨fun rx => ⟨?starts, ?ignored, ?error⟩, fun rx => ⟨?stored, ?tooLong, ?broken, ?last⟩⟩,
    fun s released rx gap => ?gap⟩
  case starts =>
    rw [exec_receivedByte released, State.receive_of_waiting rx, if_pos rfl]
    rfl
  case ignored =>
    intro b other
    rw [exec_receivedByte released, State.receive_of_waiting rx, if_neg other]
  case error =>
    intro b
    rw [exec_receivedByte released, State.receive_low_of_waiting rx]
    rfl
  case stored =>
    intro b length more
    rw [exec_receivedByte released, State.receive_of_opened rx, State.openByte_stored length more]
    rfl
  case tooLong =>
    intro b first long
    rw [exec_receivedByte released, State.receive_of_opened rx, State.openByte_too_long first long]
    rfl
  case broken =>
    intro b
    rw [exec_receivedByte released, State.receive_low_of_opened rx]
    rfl
  case last =>
    intro b last
    rw [exec_receivedByte released, State.receive_of_opened rx, State.openByte_last last]
    exact ⟨fun crc => congrArg _ (State.completeFrame_of_match crc),
      fun crc => congrArg _ (State.completeFrame_of_mismatch crc)⟩
  case gap =>
    exact (simple_released released State.gapExpired).trans (congrArg _ (State.gapExpired_of_running rx gap))

/-- Settles O7: the bytes of a frame are stored up to the last, which completes it; taken, it is refused by its kind, then
by the length its kind requires. -/
theorem frameReceivedIsTaken : Obligations.FrameReceivedIsTaken := by
  unfold Obligations.FrameReceivedIsTaken
  refine ⟨fun kind n body s bound rx buffer gap => receiveAll_frameBytes rx buffer gap kind n bound,
    fun kind n body s => ⟨?unknown, ?fixed, ?gate, ?order, ?points, ?cells⟩⟩
  case unknown => exact fun unknown => State.takeFrame_unknownKind unknown n body
  case fixed =>
    intro p mem code length
    obtain ⟨known, required⟩ := requiredLength_fixed p mem
    rw [← code] at known required
    refine State.takeFrame_badLength known (fun h => length ?_) n
    rw [required] at h
    exact (Option.some.inj h).symm
  case gate =>
    rintro rfl length
    exact State.takeFrame_badLength (kind := 0x08) (by decide) (requiredLength_configureGate length) n
  case order =>
    rintro rfl trigger length
    exact State.takeFrame_badLength (kind := 0x0F) (by decide) (requiredLength_postOrder rfl length) n
  case points =>
    rintro rfl length
    exact State.takeFrame_badLength (kind := 0x19) (by decide) (requiredLength_pushPoints length) n
  case cells =>
    rintro rfl length
    exact State.takeFrame_badLength (kind := 0x1E) (by decide) (requiredLength_writeCells length) n

/-- Settles O8: the link port's hand-over of a notice, of a reply and of a finished frame, by what is on the line and what
waits; the layouts are the model's. -/
theorem noticesAndTransmission : Obligations.NoticesAndTransmission := by
  unfold Obligations.NoticesAndTransmission
  refine ⟨fun m s => ⟨?lost, ?full, ?waits, ?starts⟩, ?finished, fun _ _ _ => rfl, fun _ => rfl, fun _ => rfl,
    fun r s => ⟨?behind, ?alone, ?oldest, rfl, State.reply_of_no_notice true r, ?first⟩⟩
  case lost => exact fun disabled => congrArg s.setLink (Link.take_of_disabled disabled)
  case full => exact fun enabled full => congrArg s.setLink (Link.take_of_full enabled full)
  case waits => exact fun enabled room busy => congrArg s.setLink (Link.take_of_room enabled room busy)
  case starts =>
    exact fun enabled notices replies line => congrArg s.setLink (Link.take_of_empty enabled line replies notices)
  case finished =>
    intro s released busy
    rw [exec_frameFinished released busy, Link.decide_eq]
    rfl
  case behind => exact fun busy => congrArg s.setLink (Link.place_of_busy busy r)
  case alone => exact fun idle replies => congrArg s.setLink (Link.place_of_empty idle replies r)
  case oldest => exact fun q rest idle replies => congrArg s.setLink (Link.place_of_idle idle replies r)
  case first => exact fun m line => State.reply_of_notice line r

end Sys2Proof.Proofs
end

section
/-! The clear move of a resting gate through every command (R16): a law of gate records like the outputs of chapter
2. -/

namespace Sys2Proof.Machine

open Sys2Proof.Safety

/-- The move is clear while the gate is ABSENT, PARKED or TRIPPED (R16). -/
def ClearAtRest (r : GateRec) : Prop := r.state.moving = false → r.move = Move.empty

/-- CONFIGURE_GATE of an ABSENT gate clears its move, CLEAR_TRIP leaves a TRIPPED gate's move, which is clear (R13,
R37). -/
theorem restingRecordLaw : RecordLaw ClearAtRest fun _ => True where
  toGateLaw := restingLaw
  cold _ _ := rfl
  configured r p ok := by
    by_cases st : r.state = .absent
    · rw [r.configured_of_absent p st]
      exact fun _ => rfl
    · rw [r.configured_of_present p st]
      exact ok
  cleared r ok st _ := ok (by rw [st]; rfl)

/-- The assertion of the reset line sets outputs alone (R185). -/
theorem GatesObey.clearAtRest_assertReset {s : State} (ok : GatesObey ClearAtRest s) :
    GatesObey ClearAtRest s.assertReset := by
  intro g
  have held : s.assertReset.gate g = (s.gate g).held := Vector.getElem_ofFn _
  rw [held]
  exact ok g

end Sys2Proof.Machine

namespace Sys2Proof.Proofs

open Sys2Proof.Machine Sys2Proof.Safety

theorem exec_keeps_restingGatesClear {i : Instr} {s t : State} (ok : RestingGatesClear s)
    (h : exec i s = .next t) : RestingGatesClear t := by
  by_cases reset : i = .resetLineAsserted
  · subst reset
    cases h
    exact GatesObey.clearAtRest_assertReset ok
  · exact GatesObey.exec restingRecordLaw ok h reset

/-- Settles O59: the front command keeps the move of a resting gate clear, and an empty queue idles. -/
theorem stepKeepsRestingGatesClear : Obligations.StepKeepsRestingGatesClear := by
  unfold Obligations.StepKeepsRestingGatesClear
  intro s t ok h
  unfold step at h
  split at h
  · cases h
    exact ok
  · next i rest _ => exact exec_keeps_restingGatesClear (s := { s with pending := rest }) ok h

end Sys2Proof.Proofs
end

section
/-! The end of one order (R58 to R60): a completion by its report, for a RUNNING and for a GRANTED slot; and the
requests of a gate that stop it and clear its trip, STOP_GATE and CLEAR_TRIP (R31, R37, R41). -/

namespace Sys2Proof.Machine

open Sys2Proof.Safety

section

variable {s : State} {g : GateNo} {k : SlotNo} {o : Order}

/-! ### Completions -/

theorem State.slot_completes (s : State) (k j : SlotNo) (o : Order) (x : Report) :
    (completes s k o x).slot j = if k = j then completedWith (s.slot k) o x else s.slot j := s.slot_setSlot k j _

theorem completedWith_not_waiting (r : Slot) (o : Order) (x : Report) : ¬(completedWith r o x).Waiting := by
  unfold Slot.Waiting completedWith
  cases o.rep <;> simp

/-- No slot waits once a slot has completed that may have waited. -/
theorem State.noneWaits_completes (h : NoneWaits s) (k : SlotNo) (o : Order) (x : Report) :
    NoneWaits (completes s k o x) := by
  intro j
  rw [State.slot_completes]
  split
  · exact fun pending => completedWith_not_waiting _ o x (.inl pending)
  · exact h j

/-- A GRANTED slot completes without a start time and a unit, and its grant is abandoned (R57, R60). -/
theorem State.completeGranted_eq (granted : (s.slot k).state = .granted) (order : (s.slot k).order = some o)
    (x : OrderOutcome) (c : Option TripCause) (l r : Option Int) :
    s.completeGranted k x c l r =
      (completes s k o ((s.slot k).newReport ⟨x, c, l, r, none, none⟩ s.clock)).handBackOf (s.slot k) := by
  unfold State.completeGranted
  rw [if_pos granted, State.complete_eq _ _ _ _ order]

/-- A RUNNING slot completes with its start time and its unit, and the table looks whether any slot is RUNNING (R58,
R73). -/
theorem State.completeRunning_eq (running : (s.slot k).state = .running) (order : (s.slot k).order = some o)
    (x : OrderOutcome) (c : Option TripCause) (l r : Option Int) :
    s.completeRunning k x c l r =
      (completes s k o ((s.slot k).newReport
        ⟨x, c, l, r, (s.slot k).startTime, (s.slot k).unit⟩ s.clock)).noteRunning := by
  unfold State.completeRunning
  rw [if_pos running, State.complete_eq _ _ _ _ order]

/-- The slot found for a gate is GRANTED (R81). -/
theorem State.granted_of_grantedFor (h : s.grantedFor g = some k) : (s.slot k).state = .granted := by
  have found := List.find?_some h
  simp only [Bool.and_eq_true, beq_iff_eq] at found
  exact found.1

/-! ### STOP_GATE (R41) -/

/-- STOP_GATE of a gate in motion is a stop of its move (R41). -/
theorem State.serveStopGate_of_moving (moving : (s.gate g).state.moving = true) :
    s.serveStopGate g.val = (s.stopMove g).taken := by
  unfold State.serveStopGate
  rw [gateOf_val, State.named_some]
  cases st : (s.gate g).state with
  | absent | parked | tripped => simp [st, GateState.moving] at moving
  | releasing | building | travel | held | settling | locking => simp only [st]

/-- STOP_GATE where there is nothing to stop (R41). -/
theorem State.serveStopGate_of_nothing (nothing : (s.gate g).state = .absent ∨ (s.gate g).state = .tripped ∨
    (s.gate g).state = .parked ∧ s.grantedFor g = none) : s.serveStopGate g.val = s.refuse .nothingToStop := by
  unfold State.serveStopGate
  rw [gateOf_val, State.named_some]
  obtain st | st | ⟨st, none⟩ := nothing
  · simp only [st]
  · simp only [st]
  · simp only [st, none]

/-- STOP_GATE of a PARKED gate completes its GRANTED slot STOPPED (R41, R60). -/
theorem State.serveStopGate_of_parked (st : (s.gate g).state = .parked) (slot : s.grantedFor g = some k) :
    s.serveStopGate g.val =
      (s.completeGranted k .stopped none (s.gate g).endL.held (s.gate g).endR.held).taken := by
  unfold State.serveStopGate
  rw [gateOf_val, State.named_some]
  simp only [st, slot]

/-- A stop of a gate that goes to LOCKING, its pins not reading ENGAGED (R31, R41). -/
theorem State.stopMove_enters (moving : (s.gate g).state.moving = true) (ne : (s.gate g).state ≠ .locking)
    (pins : s.bothPins g .engaged = false) :
    ∃ r, s.stopMove g = s.setGate g r ∧ EntersLocking (s.gate g) r ∧ r.move.outcome = some .stopped :=
  ⟨_, (State.stopMove_of_moving moving ne).trans (State.enterLocking_of_pins _ pins), (s.gate g).entersLocking .stopped,
    rfl⟩

/-! ### CLEAR_TRIP (R37) -/

/-- The trip of a gate may be cleared: both encoders GOOD, both pins ENGAGED (R37). -/
def State.TripGone (s : State) (g : GateNo) : Prop :=
  (s.gate g).endL.status = .good ∧ (s.gate g).endR.status = .good ∧ s.bothPins g .engaged = true

theorem State.serveClearTrip_of_absent (st : (s.gate g).state = .absent) :
    s.serveClearTrip g.val = s.refuse .gateAbsent := by
  unfold State.serveClearTrip
  rw [gateOf_val, State.named_some]
  simp only [st]

theorem State.serveClearTrip_of_untripped (present : (s.gate g).state ≠ .absent) (ne : (s.gate g).state ≠ .tripped) :
    s.serveClearTrip g.val = s.refuse .notTripped := by
  unfold State.serveClearTrip
  rw [gateOf_val, State.named_some]
  cases st : (s.gate g).state with
  | absent => exact absurd st present
  | tripped => exact absurd st ne
  | parked | releasing | building | travel | held | settling | locking => simp only [st]

theorem State.serveClearTrip_of_persisting (st : (s.gate g).state = .tripped) (stays : ¬s.TripGone g) :
    s.serveClearTrip g.val = s.refuse .tripPersists := by
  unfold State.serveClearTrip
  rw [gateOf_val, State.named_some]
  simp only [st]
  exact if_neg stays

theorem State.serveClearTrip_of_gone (st : (s.gate g).state = .tripped) (gone : s.TripGone g) :
    s.serveClearTrip g.val = ((s.modGate g GateRec.cleared).openRound).taken := by
  unfold State.serveClearTrip
  rw [gateOf_val, State.named_some]
  simp only [st]
  exact if_pos gone

/-- The level-required mark of a cleared gate: SKEW was among the causes and the skew still exceeds skew_trim (R37). -/
theorem GateRec.cleared_eq {r : GateRec} {t : TripRec} {x : Int} (trip : r.trip = some t) (skew : r.skew = some x) :
    r.cleared = { r with
      state := .parked, phase := none, trip := none,
      levelRequired := r.levelRequired ||
        ((t.first == .skew || hasCause t.further .skew) && decide (r.params.skewTrim < mag x)) } := by
  unfold GateRec.cleared
  simp only [trip, skew]

end

end Sys2Proof.Machine

namespace Sys2Proof.Proofs

open Sys2Proof.Machine Sys2Proof.Safety

/-- Settles O24: by the state of the gate; the order of a PARKED gate ends with its grant. -/
theorem stopGateStops : Obligations.StopGateStops := by
  unfold Obligations.StopGateStops
  have test : ∀ {s : State} (g : GateNo), s.mode ≠ .resetting → s.modeTest (.stopGate g.val) = none := fun g mode =>
    State.modeTest_of_anyMode mode rfl (by simp)
  refine ⟨fun n g s l m mode => ⟨fun moving ne pins => ?moves, fun st => ?locking, fun nothing => ?nothing⟩,
    fun n g k w s l m mode st slot order => ?parked⟩
  case moves =>
    obtain ⟨r, stopped, enters, outcome⟩ := State.stopMove_enters moving ne pins
    have serve := State.serveStopGate_of_moving moving
    rw [stopped, State.taken_of_marksClear (s := s.setGate g r) m] at serve
    exact ⟨r, request_served l (test g mode) (by simp) serve rfl, enters, outcome⟩
  case locking =>
    have serve := State.serveStopGate_of_moving (s := s) (g := g) (by rw [st]; rfl)
    rw [State.stopMove_of_locking st, State.taken_of_marksClear (s := s.setGate g _) m] at serve
    exact request_served l (test g mode) (by simp) serve rfl
  case nothing => exact request_served l (test g mode) (by simp) (State.serveStopGate_of_nothing nothing) rfl
  case parked =>
    have granted := State.granted_of_grantedFor slot
    have serve := State.serveStopGate_of_parked st slot
    rw [State.completeGranted_eq granted order] at serve
    generalize report : (s.slot k).newReport _ _ = x at serve
    have done : ∀ j, (completes s k w x).slot j = _ := fun j => State.slot_completes s k j w x
    obtain ⟨t, opened, marks, slots, gates, tide, _⟩ := (completes s k w x).handBackOf_granted_opens granted
    rw [opened] at serve
    obtain ⟨y, ran, round⟩ := request_rounded l (test g mode) (by simp) serve (marks.trans m)
    have kept : ∀ j, ¬((completes s k w x).slot j).Waiting → y.slot j = (completes s k w x).slot j := by
      intro j still
      have same : t.slot j = (completes s k w x).slot j := congrArg (fun v => v.get j) slots
      rw [← same] at still ⊢
      exact (round.slot j).of_not_waiting still
    refine ⟨y, ran, round.gates.trans gates, round.tide.trans tide, fun j ne pending waits => ?others, ?completed,
      fun u unit idle => ?unit⟩
    case others =>
      have same : (completes s k w x).slot j = s.slot j := (done j).trans (if_neg ne.symm)
      exact (kept j (by rw [same]; exact not_or.2 ⟨pending, waits⟩)).trans same
    case completed =>
      have same : (completes s k w x).slot k = completedWith (s.slot k) w x := (done k).trans (if_pos rfl)
      refine (kept k (by rw [same]; exact completedWith_not_waiting _ w x)).trans (same.trans ?_)
      rw [← report]
      rfl
    case unit =>
      rw [← opened, State.handBackOf_of_granted _ granted unit] at serve
      have waits : NoneWaits (completes s k w x) := State.noneWaits_completes idle k w x
      have ends := State.taken_of_finish (State.finish_openRound_of_noneWaits (State.noneWaits_abandons waits u) m)
      have answered := request_answered (n := n) l (test g mode) (by simp) (serve.trans ends)
      obtain ⟨_, _, framed⟩ := State.reply_frame (abandons (completes s k w x) u) s.link.line.isNone (okReply n 0x15 [])
      obtain rfl := Host.Outcome.next.inj (ran.symm.trans (answered.trans (congrArg _ framed)))
      exact ⟨rfl, rfl⟩

/-- Settles O25: by the state of the gate, and by whether its trip is gone. -/
theorem clearTripParks : Obligations.ClearTripParks := by
  unfold Obligations.ClearTripParks
  intro n g s l m mode r refused
  have test : s.modeTest (.clearTrip g.val) = none := State.modeTest_of_anyMode mode rfl (by simp)
  refine ⟨fun st => ?absent, fun present ne => ?untripped, fun st stays => ?persists,
    fun t x st good good' pins trip skew => ?gone⟩
  case absent => exact request_served l test (by simp) (State.serveClearTrip_of_absent st) rfl
  case untripped => exact request_served l test (by simp) (State.serveClearTrip_of_untripped present ne) rfl
  case persists => exact request_served l test (by simp) (State.serveClearTrip_of_persisting st stays) rfl
  case gone =>
    obtain ⟨y, ran, round⟩ := request_rounded l test (by simp)
      (State.serveClearTrip_of_gone st ⟨good, good', pins⟩) (by exact m)
    have gate : ∀ h, y.gate h = (s.modGate g GateRec.cleared).gate h := fun h => congrArg (fun v => v.get h) round.gates
    refine ⟨y, ran, fun h ne => (gate h).trans (s.gate_setGate_ne _ ne.symm), ?_⟩
    rw [gate, State.modGate, State.gate_setGate_self]
    exact GateRec.cleared_eq trip skew

end Sys2Proof.Proofs
end

section
/-! Trips (R32 to R35): the record a trip leaves, and what it makes of the order, of the unit and of the grant. -/

namespace Sys2Proof.Machine

open Sys2Proof.Safety

section

variable {s t : State} {g : GateNo} {k : SlotNo} {o : Order}

/-! ### The end of an order, as the table, the units and the link port show it -/

/-- From `s` to `t` slot `k` has become `r` and the link port `l`; the other slots and the units stand. -/
structure EndsOrder (k : SlotNo) (r : Slot) (l : Link) (s t : State) : Prop where
  slot : t.slot k = r
  others : ∀ j, j ≠ k → t.slot j = s.slot j
  link : t.link = l
  units : t.units = s.units

theorem EndsOrder.completes (s : State) (k : SlotNo) (o : Order) (x : Report) :
    EndsOrder k (completedWith (s.slot k) o x) (s.notify (orderDoneNotice k (s.slot k) o x)).link s
      (completes s k o x) :=
  ⟨(s.slot_completes k k o x).trans (if_pos rfl), fun j ne => (s.slot_completes k j o x).trans (if_neg ne.symm), rfl,
    rfl⟩

theorem EndsOrder.freeSlot (s : State) (k : SlotNo) : EndsOrder k Slot.empty s.link s (s.freeSlot k) := by
  rw [State.freeSlot_eq]
  have slot := fun j => (s.attemptCalled k).slot_rewritten k j Slot.empty
  refine ⟨(slot k).trans (if_pos rfl), fun j ne => (slot j).trans (if_neg ne.symm), ?_, ?_⟩ <;>
    · unfold State.rewritten
      split <;> rfl

/-- The look whether any slot is RUNNING writes the report mark alone (R73). -/
theorem State.noteRunning_frame (s : State) : ∃ m, s.noteRunning = { s with marks := m } := by
  unfold State.noteRunning
  split <;> exact ⟨_, rfl⟩

theorem EndsOrder.noteRunning {r : Slot} {l : Link} (h : EndsOrder k r l s t) : EndsOrder k r l s t.noteRunning := by
  obtain ⟨_, eq⟩ := t.noteRunning_frame
  rw [eq]
  exact ⟨h.slot, h.others, h.link, h.units⟩

/-- The order of a move that has ended completes, where its slot is RUNNING and the move is not under the reset mark
(R58). -/
theorem State.endOrder_of_running {r : GateRec} (slot : r.move.slot = some k) (mark : r.move.resetMark = false)
    (running : (s.slot k).state = .running) (order : (s.slot k).order = some o) (x : OrderOutcome)
    (c : Option TripCause) :
    s.endOrder r x c = (completes s k o ((s.slot k).newReport
      ⟨x, c, r.endL.held, r.endR.held, (s.slot k).startTime, (s.slot k).unit⟩ s.clock)).noteRunning := by
  unfold State.endOrder
  simp only [slot, mark, Bool.false_eq_true, if_false]
  exact State.completeRunning_eq running order _ _ _ _

/-- The order of a move under the reset mark is dropped (R61). -/
theorem State.endOrder_of_mark {r : GateRec} (slot : r.move.slot = some k) (mark : r.move.resetMark = true)
    (running : (s.slot k).state = .running) (x : OrderOutcome) (c : Option TripCause) :
    s.endOrder r x c = (s.freeSlot k).noteRunning := by
  unfold State.endOrder State.dropOrder
  simp only [slot, mark, if_true, running]

/-! ### The release of a unit (R102) -/

/-- The release of a unit writes the units and the round mark alone (R102). -/
theorem State.releaseUnit_frame (s : State) (u : Option UnitNo) :
    ∃ v m, s.releaseUnit u = { s with units := v, marks := m } := by
  unfold State.releaseUnit
  split
  · exact ⟨_, _, rfl⟩
  · split <;> exact ⟨_, _, rfl⟩

theorem State.releaseUnit_of_assigned {u : UnitNo} (h : (s.unit u).state = .assigned) :
    s.releaseUnit (some u) = (s.setUnit u (s.unit u).toIdle).openRound := if_pos h

/-- What the end of an order and the release of the unit of its move leave between them (R31, R33). -/
theorem EndsOrder.releaseUnit {r : Slot} {l : Link} (h : EndsOrder k r l s t) (u : Option UnitNo) :
    (t.releaseUnit u).slot k = r ∧ (t.releaseUnit u).link = l ∧
      (∀ j, j ≠ k → (t.releaseUnit u).slot j = s.slot j) ∧
      ∀ v, u = some v → (s.unit v).state = .assigned →
        (t.releaseUnit u).unit v = (s.unit v).toIdle ∧ (∀ w, w ≠ v → (t.releaseUnit u).unit w = s.unit w) ∧
          (t.releaseUnit u).marks.roundDue = true := by
  have unit : ∀ v, t.unit v = s.unit v := fun v => congrArg (fun x => x.get v) h.units
  obtain ⟨_, _, frame⟩ := t.releaseUnit_frame u
  have slot : ∀ j, (t.releaseUnit u).slot j = t.slot j := fun j => by rw [frame]; rfl
  have link : (t.releaseUnit u).link = t.link := by rw [frame]
  refine ⟨(slot k).trans h.slot, link.trans h.link, fun j ne => (slot j).trans (h.others j ne), ?_⟩
  rintro v rfl assigned
  rw [← unit v] at assigned
  rw [State.releaseUnit_of_assigned assigned, unit v]
  exact ⟨t.unit_setUnit_self v _, fun w ne => (t.unit_setUnit_ne _ ne.symm).trans (unit w), rfl⟩

/-! ### A trip in its parts (R33) -/

/-- The first steps of a trip: the TRIPPED record and the GATE_TRIP notice (R33). -/
def State.tripTold (s : State) (g : GateNo) (c : TripCause) (f : BitVec 7) (e : Concern) : State :=
  (s.setGate g ((s.gate g).tripped c f e s.clock)).notify (.gateTrip g c e (s.gate g).move.slot s.clock)

/-- The next steps of a trip: its order or its grant ends, and its unit is released (R33, R60). -/
def State.tripEnds (s : State) (g : GateNo) (c : TripCause) (f : BitVec 7) (e : Concern) : State :=
  match (s.gate g).state with
  | .parked =>
    match s.grantedFor g with
    | some k => (s.tripTold g c f e).completeGranted k .tripped (some c) (s.gate g).endL.held (s.gate g).endR.held
    | none => s.tripTold g c f e
  | _ => ((s.tripTold g c f e).endOrder (s.gate g) .tripped (some c)).releaseUnit (s.gate g).move.unit

theorem State.tripGate_eq (s : State) (g : GateNo) (c : TripCause) (f : BitVec 7) (e : Concern) :
    s.tripGate g c f e =
      (s.tripEnds g c f e).modGate g fun r => r.afterTrip ((s.tripEnds g c f e).bothPins g .engaged) := rfl

theorem State.touch_tripEnds (s : State) (g : GateNo) (c : TripCause) (f : BitVec 7) (e : Concern) :
    Touch (fun _ => False) (s.tripTold g c f e) (s.tripEnds g c f e) := by
  unfold State.tripEnds
  split
  · split
    · exact State.touch_completeGranted _ _ _ _ _ _
    · exact .refl _
  · exact (State.touch_endOrder _ _ _ _).trans (State.touch_releaseUnit _ _)

/-- A trip leaves a TRIPPED record, with the lock timer running unless both pins read ENGAGED (R33, R35). -/
theorem State.gate_tripGate_eq (s : State) (g : GateNo) (c : TripCause) (f : BitVec 7) (e : Concern) :
    (s.tripGate g c f e).gate g =
      ((s.gate g).tripped c f e s.clock).afterTrip (s.bothPins g .engaged) := by
  have touch := s.touch_tripEnds g c f e
  have gate : (s.tripEnds g c f e).gate g = (s.tripTold g c f e).gate g := (touch.others not_false).1
  have told : (s.tripTold g c f e).gate g = (s.gate g).tripped c f e s.clock := State.gate_setGate_self _ _ _
  have pins : (s.tripEnds g c f e).bothPins g .engaged = s.bothPins g .engaged :=
    (State.bothPins_congr gate touch.kept.inputs _).trans (State.bothPins_setGate _ rfl)
  rw [State.tripGate_eq, State.modGate, State.gate_setGate_self, gate, told, pins]

/-- The trip of a gate that is not PARKED ends its move (R33). -/
theorem State.tripEnds_of_not_parked (ne : (s.gate g).state ≠ .parked) (c : TripCause) (f : BitVec 7) (e : Concern) :
    s.tripEnds g c f e =
      ((s.tripTold g c f e).endOrder (s.gate g) .tripped (some c)).releaseUnit (s.gate g).move.unit := by
  unfold State.tripEnds
  split
  · next parked => exact absurd parked ne
  · rfl

/-- What the trip of a gate that is not PARKED leaves of its order and its unit (R33). -/
theorem EndsOrder.tripGate {x : Slot} {l : Link} {c : TripCause} {f : BitVec 7} {e : Concern}
    (h : EndsOrder k x l (s.tripTold g c f e) ((s.tripTold g c f e).endOrder (s.gate g) .tripped (some c)))
    (ne : (s.gate g).state ≠ .parked) :
    let t := s.tripGate g c f e
    t.slot k = x ∧ t.link = l ∧ (∀ j, j ≠ k → t.slot j = s.slot j) ∧
      ∀ u, (s.gate g).move.unit = some u → (s.unit u).state = .assigned →
        t.unit u = (s.unit u).toIdle ∧ (∀ v, v ≠ u → t.unit v = s.unit v) ∧ t.marks.roundDue = true := by
  have left := h.releaseUnit (s.gate g).move.unit
  rw [← State.tripEnds_of_not_parked ne] at left
  exact left

/-- The trip of a PARKED gate ends its grant (R60). -/
theorem State.tripEnds_of_granted (st : (s.gate g).state = .parked) (slot : s.grantedFor g = some k)
    (order : (s.slot k).order = some o) (c : TripCause) (f : BitVec 7) (e : Concern) :
    s.tripEnds g c f e =
      (completes (s.tripTold g c f e) k o ((s.slot k).newReport
        ⟨.tripped, some c, (s.gate g).endL.held, (s.gate g).endR.held, none, none⟩ s.clock)).handBackOf (s.slot k) := by
  unfold State.tripEnds
  simp only [st, slot]
  exact State.completeGranted_eq (s := s.tripTold g c f e) (State.granted_of_grantedFor slot) order _ _ _ _

/-! ### The expiries that trip (R32) -/

theorem event_becomes {f : State → State} (released : s.resetHeld = false) (becomes : f s = t) :
    event s f = .next t.finish :=
  (event_released released f).trans (congrArg (fun x : State => Host.Outcome.next x.finish) becomes)

/-- The concern of a trip by the conditions of the two ends (R32). -/
theorem concernOf_eq (l r : Bool) :
    concernOf l r = if l = true ∧ r = false then .l else if l = false ∧ r = true then .r else .both := by
  cases l <;> cases r <;> rfl

theorem GateRec.runs_of_no_phase {r : GateRec} (none : r.phase = none) (t : PhaseTimer) : r.runs t = false := by
  unfold GateRec.runs
  rw [none]

end

end Sys2Proof.Machine

namespace Sys2Proof.Proofs

open Sys2Proof.Machine Sys2Proof.Safety

/-- Settles O26: the record by the parts of a trip; the expiries by their conditions; the order by whether the gate was
PARKED. -/
theorem tripsLeaveGateTripped : Obligations.TripsLeaveGateTripped := by
  unfold Obligations.TripsLeaveGateTripped
  refine ⟨?record, ?expiries, ?order⟩
  case record =>
    intro g c f e s r t
    have touch : Touch (Eq g) s t := s.touch_tripGate g c f e
    have record : t.gate g = (r.tripped c f e s.clock).afterTrip (s.bothPins g .engaged) := s.gate_tripGate_eq g c f e
    rw [record]
    refine ⟨fun h ne => (touch.others ne.symm).1, rfl, rfl, rfl, rfl, rfl, rfl, fun x => ?_, touch.kept.tide,
      touch.kept.clock, touch.kept.mode⟩
    cases x <;> rfl
  case expiries =>
    intro g s released m r
    refine ⟨fun st runs => ?release, fun st runs => ?build, fun st runs => ?lock, fun x st stall driven => ?stall,
      fun none => ?idle⟩
    case release =>
      refine event_becomes (f := fun s => s.releaseExpired g) released ((if_pos ⟨st, runs⟩).trans ?_)
      rw [concernOf_eq]
      simp
    case build =>
      refine event_becomes (f := fun s => s.buildExpired g) released ((if_pos ⟨st, runs⟩).trans ?_)
      rw [concernOf_eq]
      simp [r]
    case lock =>
      refine event_becomes (f := fun s => s.lockExpired g) released ((State.lockExpired_of_locking st runs).trans ?_)
      rw [concernOf_eq]
      simp
    case stall =>
      exact event_becomes (f := fun s => s.stallExpired g x) released (if_pos ⟨st, stall, driven⟩)
    case idle =>
      have off : ∀ t, ¬(s.gate g).runs t = true := fun t => Bool.not_eq_true _ ▸ GateRec.runs_of_no_phase none t
      exact ⟨event_of_same released m (if_neg fun h => off _ h.2), event_of_same released m (if_neg fun h => off _ h.2),
        event_of_same released m (if_neg fun h => off _ h.2), event_of_same released m (if_neg fun h => off _ h.2),
        event_of_same released m (if_neg fun h => off _ h.2)⟩
  case order =>
    intro g c f e k w s r t told report order
    refine ⟨fun ne slot running => ?moving, fun st slot => ?parked⟩
    case moving =>
      let ended := (s.tripTold g c f e).endOrder r .tripped (some c)
      have completed : r.move.resetMark = false → EndsOrder k _ _ (s.tripTold g c f e) ended := fun mark =>
        (State.endOrder_of_running (s := s.tripTold g c f e) slot mark running order .tripped (some c)) ▸
          (EndsOrder.completes _ k w _).noteRunning
      have dropped : r.move.resetMark = true → EndsOrder k _ _ (s.tripTold g c f e) ended := fun mark =>
        (State.endOrder_of_mark (s := s.tripTold g c f e) slot mark running .tripped (some c)) ▸
          (EndsOrder.freeSlot _ k).noteRunning
      have left : ∃ x l, EndsOrder k x l (s.tripTold g c f e) ended := by
        cases mark : r.move.resetMark with
        | false => exact ⟨_, _, completed mark⟩
        | true => exact ⟨_, _, dropped mark⟩
      obtain ⟨_, _, ends⟩ := left
      obtain ⟨_, _, others, units⟩ := ends.tripGate ne
      refine ⟨fun mark => ?_, fun mark => ?_, others, units⟩
      · obtain ⟨slot, link, _⟩ := (completed mark).tripGate ne
        exact ⟨slot, link⟩
      · obtain ⟨slot, link, _⟩ := (dropped mark).tripGate ne
        exact ⟨slot, link⟩
    case parked =>
      have granted := State.granted_of_grantedFor slot
      have ends := State.tripEnds_of_granted st slot order c f e
      have slots : ∀ j, t.slot j = _ := fun j =>
        (congrArg (fun x : State => x.slot j) ends).trans (State.slot_handBackOf _ _ j)
      have told := EndsOrder.completes (s.tripTold g c f e) k w (report none none)
      obtain ⟨_, _, _, _, frame⟩ :=
        (completes (s.tripTold g c f e) k w (report none none)).tableOnly_handBackOf (s.slot k)
      refine ⟨(slots k).trans told.slot, fun j ne => (slots j).trans (told.others j ne),
        (congrArg State.link (ends.trans frame)).trans told.link, fun u unit => ?_⟩
      rw [State.handBackOf_of_granted _ granted unit] at ends
      have trip := congrArg (fun x : State => (x.units, x.startQueue, x.marks.roundDue)) ends
      simp only [Prod.mk.injEq] at trip
      exact trip

end Sys2Proof.Proofs
end

section
/-! The expiries that end a move and the pin feedback (R18, R20, R30, R31, R35, R160). -/

namespace Sys2Proof.Machine

open Sys2Proof.Safety

section

variable {s : State} {g : GateNo} {ch : Channel} {p : PinPos}

/-! ### Expiries -/

/-- An event that writes one gate alone, and marks nothing, ends with it. -/
theorem event_setGate {f : State → State} {r : GateRec} (released : s.resetHeld = false) (m : MarksClear s)
    (becomes : f s = s.setGate g r) : event s f = .next (s.setGate g r) :=
  (event_becomes released becomes).trans (congrArg _ (State.finish_of_marksClear (s := s.setGate g r) m))

/-- Entry to LOCKING by an expiry: a pending outcome stays (R31). -/
theorem State.expiry_enters {f : State → State} {o : OrderOutcome} (released : s.resetHeld = false) (m : MarksClear s)
    (pins : s.bothPins g .engaged = false) (ne : o ≠ .stopped) (becomes : f s = s.enterLocking g o) :
    ∃ r, event s f = .next (s.setGate g r) ∧ EntersLocking (s.gate g) r ∧
      r.move.outcome = some ((s.gate g).move.outcome.getD o) :=
  ⟨_, event_setGate released m (becomes.trans (State.enterLocking_of_pins o pins)), (s.gate g).entersLocking o,
    (s.gate g).locking.move.outcome_setPending ne⟩

/-! ### Pin feedback -/

/-- The channel that serves the end a channel serves is that channel (R3). -/
theorem Swap.channelOf_endOf (w : Swap) (ch : Channel) : w.channelOf (w.endOf ch) = ch := by
  cases w <;> cases ch <;> rfl

theorem PinInputs.level_put (i : PinInputs) (ch : Channel) (p : PinPos) : (i.put ch p).level ch = p := by
  cases ch <;> rfl

theorem State.pinInput_setPinInput_self (s : State) (g : GateNo) (i : PinInputs) :
    (s.setPinInput g i).pinInput g = i := by
  simp [State.setPinInput, State.pinInput, Vector.get_eq_getElem]

/-- The state after the feedback of one channel, before the gate acts on it. -/
def State.withPin (s : State) (g : GateNo) (ch : Channel) (p : PinPos) : State :=
  s.setPinInput g ((s.pinInput g).put ch p)

/-- The end a channel serves reads the level given to that channel (R2). -/
theorem State.pin_withPin (s : State) (g : GateNo) (ch : Channel) (p : PinPos) :
    (s.withPin g ch p).pin g ((s.gate g).params.swap.endOf ch) = p := by
  have channel : ((s.withPin g ch p).gate g).params.swap.channelOf ((s.gate g).params.swap.endOf ch) = ch :=
    (s.gate g).params.swap.channelOf_endOf ch
  unfold State.pin
  rw [channel, State.withPin, State.pinInput_setPinInput_self, PinInputs.level_put]

/-- A level given again changes nothing. -/
theorem State.pinEvent_of_same (same : (s.pinInput g).level ch = p) : s.pinEvent g ch p = s := if_pos same

/-- A level that changes is recorded, and the gate acts on it. -/
theorem State.pinEvent_of_change (released : s.resetHeld = false) (change : (s.pinInput g).level ch ≠ p) :
    s.pinEvent g ch p = ((s.withPin g ch p).pinChanged g ((s.gate g).params.swap.endOf ch)).finish := by
  unfold State.pinEvent
  rw [if_neg change]
  exact if_neg (by simp [released])

/-- The feedback of a gate at rest is only recorded. -/
theorem State.pinChanged_of_rest {e : HoistEnd} (st : (s.gate g).state = .absent ∨ (s.gate g).state = .parked) :
    s.pinChanged g e = s := by
  unfold State.pinChanged
  obtain st | st := st <;> simp only [st]

/-- The feedback in RELEASING acts where both pins read WITHDRAWN (R18). -/
theorem State.pinChanged_of_releasing {e : HoistEnd} (st : (s.gate g).state = .releasing) :
    s.pinChanged g e = if s.bothPins g .withdrawn then s.modGate g GateRec.building else s := by
  unfold State.pinChanged
  simp only [st]

/-- The feedback of an end that should stay WITHDRAWN (R20). -/
theorem State.pinChanged_of_withdrawn {e : HoistEnd} (st : (s.gate g).state = .building ∨ (s.gate g).state = .travel ∨
    (s.gate g).state = .held ∨ (s.gate g).state = .settling) :
    s.pinChanged g e = if s.pin g e = .withdrawn then s else s.tripGate g .lockPin 0 (endConcern e) := by
  unfold State.pinChanged
  obtain st | st | st | st := st <;> simp only [st]

/-- The feedback in LOCKING acts where both pins read ENGAGED (R31). -/
theorem State.pinChanged_of_locking {e : HoistEnd} (st : (s.gate g).state = .locking) :
    s.pinChanged g e = if s.bothPins g .engaged then s.park g else s := by
  unfold State.pinChanged
  simp only [st]

/-- The feedback of a TRIPPED gate acts where both pins read ENGAGED (R35). -/
theorem State.pinChanged_of_tripped {e : HoistEnd} (st : (s.gate g).state = .tripped) :
    s.pinChanged g e = if s.bothPins g .engaged then s.modGate g fun r => { r with phase := none } else s := by
  unfold State.pinChanged
  simp only [st]

/-- What the gate makes of a level that changes is the whole of the event where it marks nothing. -/
theorem State.pinEvent_becomes {t : State} (released : s.resetHeld = false) (change : (s.pinInput g).level ch ≠ p)
    (m : MarksClear t) (becomes : (s.withPin g ch p).pinChanged g ((s.gate g).params.swap.endOf ch) = t) :
    s.pinEvent g ch p = t := by
  rw [State.pinEvent_of_change released change, becomes, State.finish_of_marksClear m]

/-! ### What the end of an event leaves alone (R78, R189) -/

/-- The report of no RUNNING slot writes the mode record, the link port, the queues and the marks alone (R189, R191). -/
theorem State.takeReport_frame (s : State) :
    ∃ m f l q d, s.takeReport = { s with mode := m, flavour := f, link := l, queues := q, marks := d } ∧
      (s.mode ≠ .run → m ≠ .run) := by
  unfold State.takeReport State.resetEndTest
  simp only
  split
  · split
    · exact ⟨_, _, _, _, _, rfl, fun _ => by simp⟩
    · split
      · exact ⟨_, _, _, _, _, rfl, fun _ => by simp⟩
      · exact ⟨_, _, _, _, _, rfl, id⟩
    · exact ⟨_, _, _, _, _, rfl, id⟩
  · exact ⟨_, _, _, _, _, rfl, id⟩

theorem State.gate_finish (s : State) (g : GateNo) : s.finish.gate g = s.gate g := by
  obtain ⟨_, _, _, _, _, frame, _⟩ := s.takeReport_frame
  have round : s.finish.gate g = s.takeReport.gate g :=
    ((State.touch_takeRound (m := fun _ => False) _).others not_false).1
  rw [round, frame]
  rfl

/-- The end of an event leaves a slot that does not wait (R56, R78). -/
theorem State.slot_finish {k : SlotNo} (still : ¬(s.slot k).Waiting) : s.finish.slot k = s.slot k := by
  obtain ⟨_, _, _, _, _, frame, _⟩ := s.takeReport_frame
  have slot : s.takeReport.slot k = s.slot k := by rw [frame]; rfl
  have round : Rounded s.takeReport s.finish := by
    have none := s.report_takeReport
    have taken : s.finish = s.takeReport.finish := (State.finish_of_no_report none).symm
    exact taken ▸ State.rounded_finish none
  exact ((round.slot k).of_not_waiting (slot ▸ still)).trans slot

/-- Outside RUN the end of an event leaves the units (R78, R79). -/
theorem State.unit_finish_of_not_run (mode : s.mode ≠ .run) (u : UnitNo) : s.finish.unit u = s.unit u := by
  obtain ⟨_, _, _, _, _, frame, stays⟩ := s.takeReport_frame
  have mode' : s.takeReport.mode ≠ .run := frame ▸ stays mode
  have unit : s.takeReport.unit u = s.unit u := by rw [frame]; rfl
  unfold State.finish
  rw [State.takeRound_of_not_run mode', ← unit]
  rfl

/-! ### Parking (R31) -/

/-- The end of an order leaves the units (R58, R61). -/
theorem State.units_endOrder (s : State) (r : GateRec) (o : OrderOutcome) (c : Option TripCause) :
    (s.endOrder r o c).units = s.units := by
  have noted : ∀ t : State, t.noteRunning.units = t.units := fun t => by
    obtain ⟨_, frame⟩ := t.noteRunning_frame
    rw [frame]
  unfold State.endOrder State.dropOrder State.completeRunning
  split
  · rfl
  · next k _ =>
    split
    · split
      · exact (noted _).trans (EndsOrder.freeSlot s k).units
      · rfl
    · simp only
      split
      · refine (noted _).trans ?_
        cases order : (s.slot k).order with
        | none =>
          unfold State.complete
          simp only [order]
        | some w => exact s.complete_eq k _ w order ▸ (EndsOrder.completes s k w _).units
      · rfl

theorem State.noteRunning_of_running (running : ∃ j, (s.slot j).state = .running) : s.noteRunning = s := by
  obtain ⟨j, running⟩ := running
  exact if_neg fun none => (s.runningCount_eq_zero_iff.1 none) j running

theorem State.noteRunning_of_none (none : NoneRunning s) : s.noteRunning = s.markReport true :=
  if_pos (s.runningCount_eq_zero_iff.2 none)

theorem completes_setGate (s : State) (g : GateNo) (r : GateRec) (k : SlotNo) (o : Order) (x : Report) :
    (completes s k o x).setGate g r = completes (s.setGate g r) k o x := rfl

/-- The release of a unit and the write of a gate commute. -/
theorem releases_setGate (s : State) (u : Option UnitNo) (g : GateNo) (r : GateRec) :
    (releases s u).setGate g r = releases (s.setGate g r) u := by
  unfold releases
  split
  · split
    · exact (if_pos ‹_›).symm
    · exact (if_neg ‹_›).symm
  · rfl

/-- The record of a gate that has parked, its move clear (R31). -/
def GateRec.atPark (r : GateRec) : GateRec := { r.parked with move := .empty }

/-- Parking ends the order of the move and releases its unit (R31). -/
theorem State.park_eq (s : State) (g : GateNo) :
    s.park g = releases (((s.setGate g (s.gate g).parked).endOrder (s.gate g)
      ((s.gate g).move.outcome.getD .stopped) none).setGate g (s.gate g).atPark) (s.gate g).move.unit := by
  let ended := (s.setGate g (s.gate g).parked).endOrder (s.gate g) ((s.gate g).move.outcome.getD .stopped) none
  have gate : (ended.releaseUnit (s.gate g).move.unit).gate g = (s.gate g).parked := by
    have touch : Touch (fun _ => False) (s.setGate g (s.gate g).parked) (ended.releaseUnit (s.gate g).move.unit) :=
      (State.touch_endOrder _ _ _ _).trans (State.touch_releaseUnit _ _)
    exact (touch.others not_false).1.trans (State.gate_setGate_self _ _ _)
  have park : s.park g = (ended.releaseUnit (s.gate g).move.unit).modMove g fun _ => .empty := rfl
  rw [park, State.modMove, State.modGate, gate, State.releaseUnit_eq, releases_setGate]
  rfl

theorem State.noteRunning_setGate (s : State) (g : GateNo) (r : GateRec) :
    s.noteRunning.setGate g r = (s.setGate g r).noteRunning := by
  by_cases none : NoneRunning s
  · rw [s.noteRunning_of_none none, (s.setGate g r).noteRunning_of_none none]
    rfl
  · have running : ∃ j, (s.slot j).state = .running := by simpa [NoneRunning] using none
    rw [s.noteRunning_of_running running, (s.setGate g r).noteRunning_of_running running]

/-- Parking completes the RUNNING slot of the move with the pending outcome (R31, R58, R59). -/
theorem State.park_of_running {k : SlotNo} {w : Order} {o : OrderOutcome} (slot : (s.gate g).move.slot = some k)
    (mark : (s.gate g).move.resetMark = false) (outcome : (s.gate g).move.outcome = some o)
    (running : (s.slot k).state = .running) (order : (s.slot k).order = some w) :
    s.park g = releases (completes (s.setGate g (s.gate g).atPark) k w ((s.slot k).newReport
      ⟨o, none, (s.gate g).endL.held, (s.gate g).endR.held, (s.slot k).startTime, (s.slot k).unit⟩ s.clock)).noteRunning
      (s.gate g).move.unit := by
  have ended := State.endOrder_of_running (s := s.setGate g (s.gate g).parked) slot mark running order o none
  rw [State.park_eq, outcome, Option.getD_some, ended, State.noteRunning_setGate, completes_setGate,
    State.setGate_setGate]
  rfl

/-- Parking releases the unit of the move, whatever becomes of its order (R31, R102). -/
theorem State.unit_park {u : UnitNo} (unit : (s.gate g).move.unit = some u) (assigned : (s.unit u).state = .assigned) :
    (s.park g).unit u = (s.unit u).toIdle := by
  rw [State.park_eq, unit, ← State.releaseUnit_eq]
  generalize ended : ((s.setGate g (s.gate g).parked).endOrder (s.gate g) _ none).setGate g _ = t
  have same : t.unit u = s.unit u := by
    rw [← ended]
    exact congrArg (fun v => v.get u) (State.units_endOrder (s.setGate g (s.gate g).parked) _ _ _)
  rw [State.releaseUnit_of_assigned (same ▸ assigned), same]
  exact t.unit_setUnit_self u _

end

end Sys2Proof.Machine

namespace Sys2Proof.Proofs

open Sys2Proof.Machine Sys2Proof.Safety

/-- Settles O27: each expiry by its condition. -/
theorem timerExpiriesEndMove : Obligations.TimerExpiriesEndMove := by
  unfold Obligations.TimerExpiriesEndMove
  refine fun g s released m pins => ⟨fun st runs => ?settle, fun st hold => ?hold, fun st runs => ?lock⟩
  case settle =>
    exact State.expiry_enters (f := fun s => s.settleExpired g) released m pins (by simp) (if_pos ⟨st, runs⟩)
  case hold =>
    exact State.expiry_enters (f := fun s => s.holdExpired g) released m pins (by simp) (if_pos ⟨st, hold⟩)
  case lock => exact event_setGate (f := fun s => s.tripLockExpired g) released m (if_pos ⟨st, runs⟩)

/-- Settles O28: by the state of the gate. -/
theorem pinFeedbackActs : Obligations.PinFeedbackActs := by
  unfold Obligations.PinFeedbackActs
  intro g ch p s released m r s'
  have recorded : (s.pinInput g).level ch ≠ p →
      s'.pinChanged g (r.params.swap.endOf ch) = s' → exec (.lockPinFeedback g ch p) s = .next s' := fun change same =>
    congrArg Host.Outcome.next (State.pinEvent_becomes released change m same)
  have read : s'.pin g (r.params.swap.endOf ch) = p := s.pin_withPin g ch p
  refine ⟨fun same => congrArg Host.Outcome.next (State.pinEvent_of_same same), fun change =>
    ⟨fun st => ?rest, fun st pins => ?waits, fun st pins => ?builds, fun st out => ?trips, fun st back => ?again,
      fun st pins => ?still, fun st pins => ?engaged⟩⟩
  case rest => exact recorded change (State.pinChanged_of_rest (s := s') st)
  case waits =>
    exact recorded change
      ((State.pinChanged_of_releasing (s := s') st).trans (if_neg (Bool.not_eq_true _ ▸ pins)))
  case builds =>
    have becomes : s'.pinChanged g (r.params.swap.endOf ch) = s'.setGate g r.building :=
      (State.pinChanged_of_releasing (s := s') st).trans (if_pos pins)
    refine ⟨r.building, congrArg Host.Outcome.next (State.pinEvent_becomes released change m becomes), rfl, rfl, rfl,
      rfl, fun e => ?_⟩
    cases e <;> rfl
  case trips =>
    have becomes : s'.pinChanged g (r.params.swap.endOf ch) = _ :=
      (State.pinChanged_of_withdrawn (s := s') st).trans (if_neg (read ▸ out))
    exact congrArg Host.Outcome.next ((State.pinEvent_of_change released change).trans (congrArg State.finish becomes))
  case again => exact recorded change ((State.pinChanged_of_withdrawn (s := s') st).trans (if_pos (read.trans back)))
  case still =>
    refine recorded change ?_
    obtain st | st := st
    · exact (State.pinChanged_of_locking (s := s') st).trans (if_neg (Bool.not_eq_true _ ▸ pins))
    · exact (State.pinChanged_of_tripped (s := s') st).trans (if_neg (Bool.not_eq_true _ ▸ pins))
  case engaged =>
    have becomes : s'.pinChanged g (r.params.swap.endOf ch) = s'.setGate g { r with phase := none } :=
      (State.pinChanged_of_tripped (s := s') st).trans (if_pos pins)
    exact congrArg Host.Outcome.next (State.pinEvent_becomes released change m becomes)

/-- Settles O29: parking ends the order of the move and releases its unit; the end of the event leaves the gate, the
ended slot and, outside RUN, the unit. -/
theorem lastPinParks : Obligations.LastPinParks := by
  unfold Obligations.LastPinParks
  refine ⟨?parks, ?ends⟩
  case parks =>
    intro g ch s released m st change pins r
    let s' := s.setPinInput g ((s.pinInput g).put ch .engaged)
    have parks : exec (.lockPinFeedback g ch .engaged) s = .next (s'.park g).finish :=
      congrArg Host.Outcome.next (State.pinEvent_of_locking released st change pins)
    refine ⟨_, parks, ?gate, fun h ne => ?others, fun k w o slot mark outcome running order once => ?slot,
      fun u mode unit assigned => ?unit⟩
    case gate => exact (State.gate_finish _ g).trans (s'.gate_park g)
    case others => exact (State.gate_finish _ h).trans ((s'.touch_park g).others ne.symm).1
    case slot =>
      have park := State.park_of_running (s := s') slot mark outcome running order
      generalize report : (s'.slot k).newReport _ _ = x at park
      obtain ⟨completed, _⟩ :=
        (EndsOrder.completes (s'.setGate g (s'.gate g).atPark) k w x).noteRunning.releaseUnit (s'.gate g).move.unit
      rw [State.releaseUnit_eq, ← park] at completed
      rw [State.slot_finish (completed ▸ completedWith_not_waiting _ w x), completed, ← report]
      exact ⟨if_pos once, rfl⟩
    case unit =>
      have mode' : (s'.park g).mode ≠ .run := (s'.touch_park g).kept.mode ▸ mode
      rw [State.unit_finish_of_not_run mode', State.unit_park (s := s') unit assigned]
      exact ⟨rfl, rfl⟩
  case ends =>
    intro g ch k w o s released m st change pins r slot mark outcome running order parked done
    let s' := s.setPinInput g ((s.pinInput g).put ch .engaged)
    have parks : exec (.lockPinFeedback g ch .engaged) s = .next (s'.park g).finish :=
      congrArg Host.Outcome.next (State.pinEvent_of_locking released st change pins)
    have slots : ∀ j, done.slot j = if k = j then completedWith (parked.slot k) w _ else parked.slot j := fun j =>
      State.slot_completes parked k j w _
    have ended : s'.park g = releases done.noteRunning r.move.unit :=
      State.park_of_running (s := s') slot mark outcome running order
    refine ⟨fun another => ?another, fun alone => ?alone⟩
    case another =>
      have still : ∃ j, (done.slot j).state = .running := by
        obtain ⟨j, ne, runs⟩ := another
        exact ⟨j, (slots j).trans (if_neg ne.symm) ▸ runs⟩
      rw [parks, ended, State.noteRunning_of_running still]
    case alone =>
      have none : NoneRunning done := by
        intro j
        rw [slots]
        split
        · unfold completedWith
          cases w.rep <;> simp
        · next ne => exact alone j (Ne.symm ne)
      rw [parks, ended, State.noteRunning_of_none none]

end Sys2Proof.Proofs
end

section
/-! TRAVEL of a gate that follows no stream (R22 to R27): what the gate compares, where it is reached, and the valves a
sample sets. -/

namespace Sys2Proof.Machine

open Sys2Proof.Safety

variable {s : State} {g : GateNo} {r : GateRec} {d : HoistEnd}

/-! ### What the gate compares, and what follows from it (R22 to R25) -/

theorem GateRec.kind_of_order {o : RunOrder} (order : r.move.order = some o) : r.kind = some o.kind := by
  unfold GateRec.kind
  rw [order]
  rfl

theorem GateRec.compared_of_not_level (kind : r.kind ≠ some .level) : r.compared = r.opening := by
  unfold GateRec.compared
  split
  · next level _ => exact absurd level kind
  · next level _ => exact absurd level kind
  · rfl

theorem GateRec.compared_of_level (kind : r.kind = some .level) (driven : r.move.drivenEnd = some d) :
    r.compared = (r.hoist d).held := by
  unfold GateRec.compared
  rw [kind, driven]

section

variable {c t : Int} (compared : r.compared = some c) (target : r.move.target = some t)

include compared target

theorem GateRec.reached_of_compared : r.reached = decide (mag (c - t) ≤ r.params.deadband) := by
  simp only [GateRec.reached, compared, target]

theorem GateRec.raising_of_compared : r.raising = decide (c < t) := by
  simp only [GateRec.raising, compared, target]

/-- The rate of the order's speed, SLOW inside approach (R25). -/
theorem GateRec.rateNow_of_compared {o : RunOrder} (order : r.move.order = some o) (stream : o.kind ≠ .stream) :
    r.rateNow = if mag (t - c) < r.params.approach then 2 else o.speed.rate := by
  simp only [GateRec.rateNow, compared, target, GateRec.baseRate, order, stream, if_false]

end

theorem SameReadings.hoist {r' : GateRec} (same : SameReadings r r') (y : HoistEnd) :
    (r'.hoist y).held = (r.hoist y).held := by
  cases y with
  | l => exact same.endL
  | r => exact same.endR

/-! ### The trips of TRAVEL (R22, R23) -/

theorem EndRec.overtravel_iff (h : EndRec) (m : Int) :
    h.overtravel m = true ↔ ∃ x, h.held = some x ∧ (x < -20 ∨ m + 20 < x) := by
  unfold EndRec.overtravel
  cases h.held <;> simp

theorem GateRec.skewTripped_of_level {k n : Int} (kind : r.kind = some .level) (skew : r.skew = some k)
    (entry : r.move.entrySkew = some n) : r.skewTripped = decide (n + r.params.deadband < mag k) := by
  simp only [GateRec.skewTripped, kind, skew, entry]

theorem GateRec.skewTripped_of_not_level {k : Int} (kind : r.kind ≠ some .level) (skew : r.skew = some k) :
    r.skewTripped = decide (r.params.skewTrip < mag k) := by
  unfold GateRec.skewTripped
  split
  · next level => exact absurd level kind
  · next _ eq _ => rw [Option.some.inj (skew.symm.trans eq)]
  · next none => exact absurd (skew.symm.trans none) (by simp)

theorem GateRec.skewConcern_of_level (kind : r.kind = some .level) (driven : r.move.drivenEnd = some d) :
    r.skewConcern = endConcern d := by
  simp only [GateRec.skewConcern, kind, driven]

/-- The end with the greater opening is the one concerned (R23). -/
theorem GateRec.skewConcern_of_not_level {k : Int} (kind : r.kind ≠ some .level) (skew : r.skew = some k) :
    r.skewConcern = if k < 0 then .r else .l := by
  unfold GateRec.skewConcern
  split
  · next level _ => exact absurd level kind
  · rw [skew, Option.getD_some, higherEnd, apply_ite endConcern]
    rfl

theorem GateRec.travelTrip_of_overtravel
    (beyond : r.endL.overtravel r.params.openingMax = true ∨ r.endR.overtravel r.params.openingMax = true) :
    r.travelTrip = some (.overtravel, if r.skewTripped then 0b0010000 else 0,
      concernOf (r.endL.overtravel r.params.openingMax) (r.endR.overtravel r.params.openingMax)) := by
  unfold GateRec.travelTrip
  simp only [Bool.or_eq_true, beyond, if_true]
  rfl

theorem GateRec.travelTrip_of_skew (left : r.endL.overtravel r.params.openingMax = false)
    (right : r.endR.overtravel r.params.openingMax = false) (skewed : r.skewTripped = true) :
    r.travelTrip = some (.skew, 0, r.skewConcern) := by
  unfold GateRec.travelTrip
  simp only [left, right, Bool.or_self, Bool.false_eq_true, if_false, skewed, if_true]

/-! ### Reaching the target (R24) -/

/-- A gate that follows no stream enters SETTLING where it is reached (R24). -/
theorem State.reachTest_of_not_stream (kind : (s.gate g).kind ≠ some .stream) :
    s.reachTest g = if (s.gate g).reached then s.setGate g (settlingRecord (s.gate g)) else s := by
  unfold State.reachTest
  cases eq : (s.gate g).kind with
  | none => simp only [eq]; rfl
  | some o =>
    cases o with
    | stream => exact absurd eq kind
    | set | level => simp only [eq]; rfl

/-! ### The valves (R25 to R27) -/

theorem GateRec.hoist_setValves (r : GateRec) (y : HoistEnd) : r.setValves.hoist y = r.followTrim.driveEnd y := by
  cases y <;> rfl

theorem GateRec.driveEnd_of_drives {y : HoistEnd} (drives : r.drives y = true) :
    r.driveEnd y = (r.hoist y).drive (if r.raising then .raise r.rateNow else .lower r.rateNow) := if_pos drives

theorem GateRec.driveEnd_of_closed {y : HoistEnd} (closes : r.drives y = false) : r.driveEnd y = (r.hoist y).closed :=
  if_neg (ne_true_of_eq_false closes)

theorem GateRec.drives_of_level (kind : r.kind = some .level) (driven : r.move.drivenEnd = some d) (y : HoistEnd) :
    r.drives y = decide (d = y) := by
  simp only [GateRec.drives, kind, driven]
  cases d <;> cases y <;> rfl

theorem GateRec.drives_of_not_level (kind : r.kind ≠ some .level) (y : HoistEnd) :
    r.drives y = (r.move.trimEnd != some y) := by
  unfold GateRec.drives
  split
  · next level => exact absurd level kind
  · rfl

/-- A driven valve moves its end (R25). -/
theorem EndRec.driven_drive (h : EndRec) (raising : Bool) (rate : Nat) :
    (h.drive (if raising then .raise rate else .lower rate)).valve.driven = true := by
  rw [EndRec.valve_drive]
  cases raising <;> rfl

theorem EndRec.held_drive (h : EndRec) (v : Valve) : (h.drive v).held = h.held := by
  unfold EndRec.drive
  split <;> rfl

/-- A valve that begins to be driven starts the stall timer from the held opening (R27). -/
theorem EndRec.stall_drive (h : EndRec) (v : Valve) :
    (h.drive v).stall = (if h.valve.driven = false then some 2000 else h.stall) ∧
      (h.drive v).stallRef = if h.valve.driven = false then h.held.getD h.stallRef else h.stallRef := by
  unfold EndRec.drive
  cases h.valve.driven <;> exact ⟨rfl, rfl⟩

/-- An end whose valve is driven and that has moved 2 mm starts its stall timer again from there (R27). -/
theorem EndRec.watch_eq {h : EndRec} {x : Int} (held : h.held = some x) :
    h.watch = if h.valve.driven = true ∧ 2 ≤ mag (x - h.stallRef) then { h with stallRef := x, stall := some 2000 }
      else h := by
  unfold EndRec.watch
  rw [held]
  rfl

/-- A trim end that is the leading end of the present direction stays recorded (R26; log 14). -/
theorem GateRec.followTrim_of_leading {k : Int} (trimmed : r.move.trimEnd = some d) (skew : r.skew = some k)
    (leads : leadingEnd r.raising k = some d) : r.followTrim = r := by
  simp only [GateRec.followTrim, trimmed, skew, leads, Option.getD_some]
  rw [← trimmed]

/-- The end that leads: the higher one while raising, the lower one while lowering (R26). -/
theorem leadingEnd_of_skewed {raising : Prop} [Decidable raising] {k : Int} (skewed : k ≠ 0) :
    leadingEnd (decide raising) k =
      some (if raising then (if 0 < k then .l else .r) else (if 0 < k then .r else .l)) := by
  unfold leadingEnd
  by_cases up : raising <;> by_cases positive : 0 < k <;> simp [skewed, up, positive]

/-- Where the recorded trim end stands, setting the valves leaves the state and the move, closes the trim end and drives
the others (R25, R26). -/
theorem GateRec.setValves_of_follow (kind : r.kind ≠ some .level) (follows : r.followTrim = r) :
    r.setValves.state = r.state ∧ r.setValves.move = r.move ∧ ∀ y, r.setValves.hoist y =
      if r.move.trimEnd = some y then (r.hoist y).closed
      else (r.hoist y).drive (if r.raising then .raise r.rateNow else .lower r.rateNow) := by
  have state : r.setValves.state = r.followTrim.state := rfl
  have move : r.setValves.move = r.followTrim.move := rfl
  rw [follows] at state move
  refine ⟨state, move, fun y => ?_⟩
  have drives := GateRec.drives_of_not_level kind y
  rw [GateRec.hoist_setValves, follows]
  split
  · next same => exact GateRec.driveEnd_of_closed (drives.trans (by simp [same]))
  · next other => exact GateRec.driveEnd_of_drives (drives.trans (by simp [other]))

/-- Without a trim end both ends of a gate on SET or STREAM are driven (R25). -/
theorem GateRec.setValves_of_not_level (kind : r.kind ≠ some .level) (untrimmed : r.move.trimEnd = none)
    (y : HoistEnd) :
    r.setValves.hoist y = (r.hoist y).drive (if r.raising then .raise r.rateNow else .lower r.rateNow) := by
  obtain ⟨_, _, hoists⟩ := GateRec.setValves_of_follow kind (GateRec.followTrim_of_untrimmed untrimmed)
  rw [hoists, untrimmed, if_neg (by simp)]

/-- On LEVEL one end is driven and the other closed (R25, R38). -/
theorem GateRec.setValves_of_level (kind : r.kind = some .level) (driven : r.move.drivenEnd = some d)
    (untrimmed : r.move.trimEnd = none) (y : HoistEnd) :
    r.setValves.hoist y =
      if d = y then (r.hoist y).drive (if r.raising then .raise r.rateNow else .lower r.rateNow)
      else (r.hoist y).closed := by
  have drives := GateRec.drives_of_level kind driven y
  rw [GateRec.hoist_setValves, GateRec.followTrim_of_untrimmed untrimmed]
  split
  · next same => exact GateRec.driveEnd_of_drives (drives.trans (decide_eq_true same))
  · next other => exact GateRec.driveEnd_of_closed (drives.trans (decide_eq_false other))

/-! ### The skew trim (R26) -/

theorem GateRec.trim_of_level (kind : r.kind = some .level) : r.trim = r := by
  unfold GateRec.trim
  rw [kind]

/-- With no trim end recorded, a skew beyond skew_trim records the leading end (R26). -/
theorem GateRec.trim_of_untrimmed {k : Int} (kind : r.kind ≠ some .level) (skew : r.skew = some k)
    (untrimmed : r.move.trimEnd = none) :
    r.trim = if r.params.skewTrim < mag k then { r with move := { r.move with trimEnd := leadingEnd r.raising k } }
      else r := by
  unfold GateRec.trim
  split
  · next level => exact absurd level kind
  · next none _ => exact absurd (skew.symm.trans none) (by simp)
  · next eq _ =>
    obtain rfl := Option.some.inj (skew.symm.trans eq)
    rw [untrimmed]

/-- A recorded trim end is discarded where the skew is within half of skew_trim (R26). -/
theorem GateRec.trim_of_trimmed {k : Int} (kind : r.kind ≠ some .level) (skew : r.skew = some k)
    (trimmed : r.move.trimEnd.isSome = true) (within : mag k ≤ r.params.skewTrim.tdiv 2) :
    r.trim = { r with move := { r.move with trimEnd := none } } := by
  obtain ⟨e, trimmed⟩ := Option.isSome_iff_exists.1 trimmed
  unfold GateRec.trim
  split
  · next level => exact absurd level kind
  · next none _ => exact absurd (skew.symm.trans none) (by simp)
  · next eq _ =>
    obtain rfl := Option.some.inj (skew.symm.trans eq)
    rw [trimmed]
    exact if_pos within

/-! ### An accepted sample in TRAVEL -/

/-- The record after an accepted sample and the stall watch (R6, R27). -/
def GateRec.watched (r : GateRec) (e : HoistEnd) (x : Int) (p : Nat) : GateRec :=
  (accepts r e x p).modEnd e EndRec.watch

theorem GateRec.watched_keeps (r : GateRec) (e : HoistEnd) (x : Int) (p : Nat) :
    (r.watched e x p).params = r.params ∧ (r.watched e x p).move = r.move ∧ (r.watched e x p).state = r.state := by
  cases e <;> exact ⟨rfl, rfl, rfl⟩

/-- What TRAVEL under a SET order reads of record `w`, which a sample and the stall watch have made of `r`. -/
structure SetReading (r w : GateRec) (c t k : Int) : Prop where
  params : w.params = r.params
  move : w.move = r.move
  state : w.state = r.state
  kind : w.kind = some .set
  skew : w.skew = some k
  compared : w.compared = some c
  target : w.move.target = some t

theorem GateRec.setReading_watched {o : RunOrder} {c t k : Int} {e : HoistEnd} {x : Int} {p : Nat}
    (order : r.move.order = some o) (set : o.kind = .set) (opening : (accepts r e x p).opening = some c)
    (skew : (accepts r e x p).skew = some k) (target : r.move.target = some t) :
    SetReading r (r.watched e x p) c t k := by
  obtain ⟨params, move, state⟩ := r.watched_keeps e x p
  have same : SameReadings (accepts r e x p) (r.watched e x p) := GateRec.sameReadings_watch _ e
  have kind : (r.watched e x p).kind = some .set := set ▸ GateRec.kind_of_order (move ▸ order)
  exact ⟨params, move, state, kind, same.skew.trans skew,
    (GateRec.compared_of_not_level (by simp [kind])).trans (same.opening.trans opening), move ▸ target⟩

theorem SetReading.not_level {w : GateRec} {c t k : Int} (h : SetReading r w c t k) : w.kind ≠ some .level := by
  simp [h.kind]

theorem SetReading.reached {w : GateRec} {c t k : Int} (h : SetReading r w c t k) :
    w.reached = decide (mag (c - t) ≤ r.params.deadband) :=
  h.params ▸ GateRec.reached_of_compared h.compared h.target

section

variable {ch : Channel} {count p n : Nat} {e : HoistEnd} {x : Int} (he : (s.gate g).params.swap.endOf ch = e)
  (hx : (s.gate g).params.opening e count = x) (pass : passesTests ((s.gate g).hoist e) x n)

include he hx pass

/-- A sample of a GOOD end of a present gate that passes both tests is accepted (R6, R7). -/
theorem State.encoderSample_accepted (present : (s.gate g).state ≠ .absent) :
    s.encoderSample g ch count p n = (s.setGate g (accepts (s.gate g) e x p)).afterSample g e .accepted := by
  have accepted : ((s.gate g).modEnd e fun _ => { ((s.gate g).hoist e).received x p with held := some x }) =
      accepts (s.gate g) e x p := by
    cases e <;> rfl
  rw [State.encoderSample_of_sample he hx present (EndRec.sample_passing _ x p n pass) (by simp), accepted]

variable (travel : (s.gate g).state = .travel)

include travel

/-- An accepted sample of a gate in TRAVEL, where a check trips the gate (R22, R23). -/
theorem State.encoderSample_of_trip {c : TripCause} {f : BitVec 7} {y : Concern}
    (trip : (accepts (s.gate g) e x p).travelTrip = some (c, f, y)) :
    s.encoderSample g ch count p n = (s.setGate g ((s.gate g).watched e x p)).tripGate g c f y := by
  have state : (accepts (s.gate g) e x p).state = .travel := (GateRec.state_modEnd _ _ _).trans travel
  have trip' : ((accepts (s.gate g) e x p).modEnd e EndRec.watch).travelTrip = some (c, f, y) :=
    (GateRec.sameReadings_watch _ e).travelTrip.trans trip
  rw [State.encoderSample_accepted he hx pass (by simp [travel])]
  simp only [State.afterSample, State.travelSample, State.modGate, State.gate_setGate_self, State.setGate_setGate,
    state, trip']
  rfl

theorem exec_sample_of_trip (released : s.resetHeld = false) {c : TripCause} {f : BitVec 7} {y : Concern}
    (trip : (accepts (s.gate g) e x p).travelTrip = some (c, f, y)) :
    exec (.encoderSample g ch count p n) s =
      .next ((s.setGate g ((s.gate g).watched e x p)).tripGate g c f y).finish :=
  event_becomes (f := fun s => s.encoderSample g ch count p n) released
    (State.encoderSample_of_trip he hx pass travel trip)

/-- A gate that follows no stream and that a sample does not trip enters SETTLING where it is reached, and has its trim
and its valves set where it is not (R24 to R26). -/
theorem exec_sample_of_travel (released : s.resetHeld = false) (m : MarksClear s)
    (untripped : (accepts (s.gate g) e x p).travelTrip = none) (kind : (s.gate g).kind ≠ some .stream) :
    exec (.encoderSample g ch count p n) s = .next (s.setGate g
      (if ((s.gate g).watched e x p).reached then settlingRecord ((s.gate g).watched e x p)
       else ((s.gate g).watched e x p).trim.setValves)) := by
  have sample := State.encoderSample_of_travel he hx travel pass untripped
  obtain ⟨_, move, state⟩ := (s.gate g).watched_keeps e x p
  have kind' : ((s.gate g).watched e x p).kind ≠ some .stream :=
    fun stream => kind ((congrArg (fun m : Move => m.order.map RunOrder.kind) move).symm.trans stream)
  rw [GateRec.watched] at *
  generalize (accepts (s.gate g) e x p).modEnd e EndRec.watch = w at sample state kind' ⊢
  have reach := State.reachTest_of_not_stream (s := s.setGate g w) (g := g) (by rwa [State.gate_setGate_self])
  simp only [State.gate_setGate_self, State.setGate_setGate] at reach
  have becomes : s.encoderSample g ch count p n =
      s.setGate g (if w.reached then settlingRecord w else w.trim.setValves) := by
    rw [sample, reach]
    cases w.reached with
    | true => simp [settlingRecord]
    | false => simp [state, travel, State.modGate]
  exact event_setGate (f := fun s => s.encoderSample g ch count p n) released m becomes

end

/-- The end that a sample arrived for, through the stall watch and the drive of its valve (R6, R27). -/
theorem EndRec.drive_watch_accepted {h h' : EndRec} {x : Int} (held : h'.held = some x) (valve : h'.valve = h.valve)
    (stall : h'.stall = h.stall) (stallRef : h'.stallRef = h.stallRef) (v : Valve) :
    (h'.watch.drive v).stall =
        (if h.valve.driven = false ∨ h.valve.driven = true ∧ 2 ≤ mag (x - h.stallRef) then some 2000 else h.stall) ∧
      (h'.watch.drive v).stallRef = if h.valve.driven = false then x
        else if h.valve.driven = true ∧ 2 ≤ mag (x - h.stallRef) then x else h.stallRef := by
  rw [(h'.watch.stall_drive v).1, (h'.watch.stall_drive v).2, EndRec.watch_eq held]
  cases driven : h.valve.driven with
  | false => simp [valve, driven, held]
  | true =>
    rw [valve, stallRef]
    split <;> simp_all

theorem GateRec.hoist_modEnd_ne (r : GateRec) {e y : HoistEnd} (ne : y ≠ e) (f : EndRec → EndRec) :
    (r.modEnd e f).hoist y = r.hoist y := by
  cases e with
  | l =>
    cases y with
    | l => exact absurd rfl ne
    | r => rfl
  | r =>
    cases y with
    | l => rfl
    | r => exact absurd rfl ne

theorem GateRec.hoist_accepts_self (r : GateRec) (e : HoistEnd) (x : Int) (p : Nat) :
    (accepts r e x p).hoist e =
      { r.hoist e with silence := some 250, pressure := some p, reference := some x, held := some x } := by
  cases e <;> rfl

theorem GateRec.hoist_watched_self (r : GateRec) (e : HoistEnd) (x : Int) (p : Nat) :
    (r.watched e x p).hoist e = ((accepts r e x p).hoist e).watch := by
  cases e <;> rfl

theorem GateRec.hoist_watched_ne (r : GateRec) {e y : HoistEnd} (ne : y ≠ e) (x : Int) (p : Nat) :
    (r.watched e x p).hoist y = r.hoist y :=
  (GateRec.hoist_modEnd_ne _ ne _).trans (r.hoist_modEnd_ne ne _)

/-- The stall timers after an accepted sample and the drive of both ends (R27). -/
theorem GateRec.stall_drive_watched (r : GateRec) (e y : HoistEnd) (x : Int) (p : Nat) (v : Valve) :
    let h := r.hoist y
    let moved := y = e ∧ h.valve.driven = true ∧ 2 ≤ mag (x - h.stallRef)
    (((r.watched e x p).hoist y).drive v).stall =
        (if h.valve.driven = false ∨ moved then some 2000 else h.stall) ∧
      (((r.watched e x p).hoist y).drive v).stallRef =
        if h.valve.driven = false then ((accepts r e x p).hoist y).held.getD h.stallRef
        else if moved then x else h.stallRef := by
  by_cases own : y = e
  · subst own
    have accepted := r.hoist_accepts_self y x p
    rw [r.hoist_watched_self, accepted]
    simpa using EndRec.drive_watch_accepted (h := r.hoist y)
      (h' := { r.hoist y with silence := some 250, pressure := some p, reference := some x, held := some x })
      rfl rfl rfl rfl v
  · have other : (accepts r e x p).hoist y = r.hoist y := r.hoist_modEnd_ne own _
    rw [r.hoist_watched_ne own, other]
    simpa [own] using (r.hoist y).stall_drive v

end Sys2Proof.Machine

namespace Sys2Proof.Proofs

open Sys2Proof.Machine Sys2Proof.Safety

/-- Settles O32: by whether a check trips the gate, and by whether it is reached. -/
theorem travelSampleDrives : Obligations.TravelSampleDrives := by
  unfold Obligations.TravelSampleDrives
  refine ⟨?sets, ?levels⟩
  case sets =>
    intro g ch count p n o c t k s released m r e x r1 travel order set pass opening skew target beyond overtravels
    obtain ⟨params, move⟩ := accepts_keeps r e x p
    have kind : (s.gate g).kind = some .set := set ▸ GateRec.kind_of_order order
    have kind1 : r1.kind = some .set := (GateRec.kind_of_order (move ▸ order)).trans (congrArg some set)
    have tripped : r1.skewTripped = decide (r.params.skewTrip < mag k) :=
      params ▸ GateRec.skewTripped_of_not_level (by simp [kind1]) skew
    have trips := fun {c f y} (trip : r1.travelTrip = some (c, f, y)) =>
      exec_sample_of_trip (ch := ch) (count := count) rfl rfl pass travel released trip
    have overtravel : ∀ z, r1.endL.overtravel r1.params.openingMax = true ∨
        r1.endR.overtravel r1.params.openingMax = true →
        concernOf (r1.endL.overtravel r1.params.openingMax) (r1.endR.overtravel r1.params.openingMax) = z →
        overtravels z := by
      intro z some concern
      refine (trips (GateRec.travelTrip_of_overtravel some)).trans ?_
      rw [concern, tripped]
      simp only [decide_eq_true_eq]
      rfl
    have beyond_iff : ∀ y, (r1.hoist y).overtravel r1.params.openingMax = true ↔ beyond y := by
      intro y
      rw [params]
      exact EndRec.overtravel_iff _ _
    have beyond_l : r1.endL.overtravel r1.params.openingMax = true ↔ beyond .l := beyond_iff .l
    have beyond_r : r1.endR.overtravel r1.params.openingMax = true ↔ beyond .r := beyond_iff .r
    let w := r.watched e x p
    have reads : SetReading r w c t k := GateRec.setReading_watched order set opening skew target
    have same : SameReadings r1 w := r1.sameReadings_watch e
    have goes := fun untripped => exec_sample_of_travel (ch := ch) (count := count) (p := p) rfl rfl pass travel
      released m untripped (by simp [kind])
    refine ⟨fun left right => ?left, fun left right => ?right, fun left right => ?both,
      fun left right skewed => ?skewed, fun untripped reached => ?reached,
      fun untripped short untrimmed within => ?driven⟩
    case left =>
      rw [← beyond_l] at left
      rw [← beyond_r, Bool.not_eq_true] at right
      exact overtravel .l (.inl left) (by rw [left, right]; rfl)
    case right =>
      rw [← beyond_l, Bool.not_eq_true] at left
      rw [← beyond_r] at right
      exact overtravel .r (.inr right) (by rw [left, right]; rfl)
    case both =>
      rw [← beyond_l] at left
      rw [← beyond_r] at right
      exact overtravel .both (.inl left) (by rw [left, right]; rfl)
    case skewed =>
      refine (trips (GateRec.travelTrip_of_skew ?_ ?_ (tripped.trans (decide_eq_true skewed)))).trans ?_
      · rwa [params]
      · rwa [params]
      · rw [GateRec.skewConcern_of_not_level (by simp [kind1]) skew]
        rfl
    case reached =>
      have reaches : w.reached = true := reads.reached.trans (decide_eq_true reached)
      refine ⟨settlingRecord w, (goes untripped).trans (by rw [if_pos reaches]), rfl, rfl, ?_, fun y => ?_⟩
      · exact congrArg (fun m : Move => { m with trimEnd := none, quiet := 0 }) reads.move
      · cases y with
        | l => exact ⟨rfl, rfl, same.hoist .l⟩
        | r => exact ⟨rfl, rfl, same.hoist .r⟩
    case driven =>
      have unreached : w.reached = false := reads.reached.trans (decide_eq_false (not_le.2 short))
      have untrimmed' : w.move.trimEnd = none := reads.move ▸ untrimmed
      have untouched : w.trim = w :=
        (GateRec.trim_of_untrimmed reads.not_level reads.skew untrimmed').trans
          (if_neg (not_lt.2 (reads.params ▸ within)))
      obtain ⟨state, moves⟩ := GateRec.setValves_keeps untrimmed'
      have drives := fun y => GateRec.setValves_of_not_level reads.not_level untrimmed' y
      refine ⟨w.setValves, (goes untripped).trans (by rw [if_neg (ne_true_of_eq_false unreached), untouched]),
        state.trans (reads.state.trans travel), moves.trans reads.move, fun y => ⟨?_, ?_⟩, fun y => ?_⟩
      · rw [drives, EndRec.held_drive]
        exact same.hoist y
      · rw [drives, EndRec.valve_drive, GateRec.raising_of_compared reads.compared reads.target,
          GateRec.rateNow_of_compared reads.compared reads.target (reads.move ▸ order) (by simp [set]), reads.params]
        simp only [decide_eq_true_eq]
        rfl
      · rw [drives]
        exact r.stall_drive_watched e y x p _
  case levels =>
    intro g ch count p _ o d a t k n s released m r e x r1 travel order level pass skew driven held target entry
    obtain ⟨params, move⟩ := accepts_keeps r e x p
    have kind : (s.gate g).kind = some .level := level ▸ GateRec.kind_of_order order
    have kind1 : r1.kind = some .level := (GateRec.kind_of_order (move ▸ order)).trans (congrArg some level)
    let w := r.watched e x p
    obtain ⟨wparams, wmove, wstate⟩ : w.params = r.params ∧ w.move = r.move ∧ w.state = r.state :=
      r.watched_keeps e x p
    have same : SameReadings r1 w := r1.sameReadings_watch e
    have wlevel : w.kind = some .level := same.kind.trans kind1
    have wdriven : w.move.drivenEnd = some d := wmove ▸ driven
    have wheld : (w.hoist d).held = some a := (same.hoist d).trans held
    have wcompared : w.compared = some a := (GateRec.compared_of_level wlevel wdriven).trans wheld
    have wtarget : w.move.target = some t := wmove ▸ target
    have wreached : w.reached = decide (mag (a - t) ≤ r.params.deadband) :=
      wparams ▸ GateRec.reached_of_compared wcompared wtarget
    have goes := fun untripped => exec_sample_of_travel (ch := ch) (count := count) (p := p) rfl rfl pass travel
      released m untripped (by simp [kind])
    refine ⟨fun left right skewed => ?skewed, fun untripped reached => ?reached,
      fun untripped short untrimmed => ?driven⟩
    case skewed =>
      have tripped : r1.skewTripped = true := by
        rw [GateRec.skewTripped_of_level kind1 skew (move ▸ entry), params]
        exact decide_eq_true skewed
      have concern : r1.skewConcern = endConcern d := GateRec.skewConcern_of_level kind1 (move ▸ driven)
      have trip := GateRec.travelTrip_of_skew (r := r1) (params ▸ left) (params ▸ right) tripped
      rw [concern] at trip
      exact exec_sample_of_trip rfl rfl pass travel released trip
    case reached =>
      have reaches : w.reached = true := wreached.trans (decide_eq_true reached)
      exact (goes untripped).trans (by rw [if_pos reaches]; rfl)
    case driven =>
      have unreached : w.reached = false := wreached.trans (decide_eq_false (not_le.2 short))
      have untrimmed' : w.move.trimEnd = none := wmove ▸ untrimmed
      obtain ⟨state, moves⟩ := GateRec.setValves_keeps untrimmed'
      have drives := fun y => GateRec.setValves_of_level wlevel wdriven untrimmed' y
      refine ⟨w.setValves, (goes untripped).trans
          (by rw [if_neg (ne_true_of_eq_false unreached), GateRec.trim_of_level wlevel]),
        state.trans (wstate.trans travel), moves.trans wmove, fun y ne => ?_, ?_⟩
      · rw [drives, if_neg ne.symm]
        rfl
      · rw [drives, if_pos rfl, EndRec.valve_drive, GateRec.raising_of_compared wcompared wtarget,
          GateRec.rateNow_of_compared wcompared wtarget (wmove ▸ order) (by simp [level]), wparams]
        simp only [decide_eq_true_eq]
        rfl

/-- Settles O33: the trim records the leading end and closes it, or discards a recorded end. -/
theorem skewTrimHoldsLeadingEnd : Obligations.SkewTrimHoldsLeadingEnd := by
  unfold Obligations.SkewTrimHoldsLeadingEnd
  intro g ch count p n o c t k s released m r e x r1 travel order set pass opening skew target untripped short positive
  have kind : (s.gate g).kind = some .set := set ▸ GateRec.kind_of_order order
  let w := r.watched e x p
  have reads : SetReading r w c t k := GateRec.setReading_watched order set opening skew target
  have unreached : w.reached = false := reads.reached.trans (decide_eq_false (not_le.2 short))
  have goes : exec (.encoderSample g ch count p n) s = .next (s.setGate g w.trim.setValves) :=
    (exec_sample_of_travel rfl rfl pass travel released m untripped (by simp [kind])).trans
      (by rw [if_neg (ne_true_of_eq_false unreached)])
  refine ⟨fun untrimmed skewed => ?begins, fun trimmed within => ?ends⟩
  case begins =>
    intro lead
    have leads : leadingEnd w.raising k = some lead := by
      have nonzero : k ≠ 0 := by
        rintro rfl
        exact absurd skewed (not_lt.2 positive)
      rw [GateRec.raising_of_compared reads.compared reads.target]
      exact leadingEnd_of_skewed nonzero
    have trim : w.trim = { w with move := { w.move with trimEnd := some lead } } :=
      (GateRec.trim_of_untrimmed reads.not_level reads.skew (reads.move ▸ untrimmed)).trans
        (by rw [if_pos (reads.params ▸ skewed), leads])
    generalize w.trim = v at trim goes
    have follows : v.followTrim = v := by
      rw [trim]
      exact GateRec.followTrim_of_leading rfl reads.skew leads
    have vset : v.kind ≠ some .level := trim ▸ reads.not_level
    have vend : v.move.trimEnd = some lead := by rw [trim]
    obtain ⟨state, moves, hoists⟩ := GateRec.setValves_of_follow vset follows
    refine ⟨v.setValves, goes, ?_, ?_, ?_, fun y ne => ?_⟩
    · rw [state, trim]
      exact reads.state.trans travel
    · rw [moves, trim, reads.move]
    · rw [hoists, if_pos vend]
      rfl
    · rw [hoists, vend, if_neg (by simpa using ne.symm)]
      exact EndRec.driven_drive _ _ _
  case ends =>
    have trim := GateRec.trim_of_trimmed reads.not_level reads.skew (reads.move ▸ trimmed) (reads.params ▸ within)
    generalize w.trim = v at trim goes
    have untrimmed : v.move.trimEnd = none := by rw [trim]
    have vset : v.kind ≠ some .level := trim ▸ reads.not_level
    obtain ⟨state, moves, hoists⟩ := GateRec.setValves_of_follow vset (GateRec.followTrim_of_untrimmed untrimmed)
    refine ⟨v.setValves, goes, ?_, ?_, fun y => ?_⟩
    · rw [state, trim]
      exact reads.state.trans travel
    · rw [moves, trim, reads.move]
    · rw [hoists, untrimmed, if_neg (by simp)]
      exact EndRec.driven_drive _ _ _

end Sys2Proof.Proofs
end

section
/-! Samples in SETTLING and HELD (R23, R30, R160), and the end of BUILDING (R20, R21, R38, R155). -/

namespace Sys2Proof.Machine

open Sys2Proof.Safety

section

variable {s : State} {g : GateNo} {r : GateRec}

/-! ### SETTLING and HELD -/

theorem State.afterSample_of_settling (e : HoistEnd) (st : r.state = .settling) :
    (s.setGate g r).afterSample g e .accepted =
      if r.skewTripped then (s.setGate g r).tripGate g .skew 0 r.skewConcern else (s.setGate g r).countQuiet g := by
  simp only [State.afterSample, State.settlingSample, State.gate_setGate_self, st]

theorem State.afterSample_of_held (e : HoistEnd) (st : r.state = .held) :
    (s.setGate g r).afterSample g e .accepted =
      if r.skewTripped then (s.setGate g r).tripGate g .skew 0 r.skewConcern else s.setGate g r := by
  simp only [State.afterSample, State.heldSample, State.gate_setGate_self, st]

/-- The record with a quiet count. -/
def GateRec.counted (r : GateRec) (n : Nat) : GateRec := { r with move := { r.move with quiet := n } }

/-- A sample in SETTLING that is not quiet starts the count again (R30). -/
theorem State.countQuiet_of_restless (restless : r.isQuiet = false) :
    (s.setGate g r).countQuiet g = s.setGate g (r.counted 0) := by
  simp only [State.countQuiet, State.modMove, State.modGate, State.gate_setGate_self, State.setGate_setGate, restless,
    Bool.false_eq_true, if_false]
  rfl

/-- A quiet sample counts, and the last of them ends the move (R30). -/
theorem State.countQuiet_of_quiet (quiet : r.isQuiet = true) :
    (s.setGate g r).countQuiet g =
      let u := s.setGate g (r.counted (r.move.quiet + 1))
      if r.params.quietCount ≤ r.move.quiet + 1 then u.enterLocking g r.move.settledOutcome else u := by
  simp only [State.countQuiet, State.modMove, State.modGate, State.gate_setGate_self, State.setGate_setGate, quiet,
    if_true]
  rfl

/-- Entry to LOCKING of a gate whose record has just been written (R31). -/
theorem State.enterLocking_setGate {o : OrderOutcome} (params : r.params = (s.gate g).params)
    (pins : s.bothPins g .engaged = false) (ne : o ≠ .stopped) :
    ∃ r', (s.setGate g r).enterLocking g o = s.setGate g r' ∧ EntersLocking r r' ∧
      r'.move.outcome = some (r.move.outcome.getD o) := by
  have pins' : (s.setGate g r).bothPins g .engaged = false := (State.bothPins_setGate _ params).trans pins
  refine ⟨_, ?_, r.entersLocking o, r.locking.move.outcome_setPending ne⟩
  rw [State.enterLocking_of_pins o pins', State.gate_setGate_self, State.setGate_setGate]

/-- What the gate makes of an accepted sample is the event but for its end (R6, R78). -/
theorem exec_sample_becomes {t : State} {ch : Channel} {count p n : Nat} {e : HoistEnd} {x : Int}
    (released : s.resetHeld = false) (he : (s.gate g).params.swap.endOf ch = e)
    (hx : (s.gate g).params.opening e count = x) (pass : passesTests ((s.gate g).hoist e) x n)
    (present : (s.gate g).state ≠ .absent)
    (becomes : (s.setGate g (accepts (s.gate g) e x p)).afterSample g e .accepted = t) :
    exec (.encoderSample g ch count p n) s = .next t.finish :=
  event_becomes (f := fun s => s.encoderSample g ch count p n) released
    ((State.encoderSample_accepted he hx pass present).trans becomes)

theorem Move.settledOutcome_ne (m : Move) : m.settledOutcome ≠ .stopped := by
  unfold Move.settledOutcome
  split <;> simp

/-! ### The end of BUILDING -/

theorem GateRec.params_modEnd (r : GateRec) (e : HoistEnd) (f : EndRec → EndRec) :
    (r.modEnd e f).params = r.params := by
  cases e <;> rfl

theorem GateRec.move_modEnd (r : GateRec) (e : HoistEnd) (f : EndRec → EndRec) : (r.modEnd e f).move = r.move := by
  cases e <;> rfl

/-- A sample in BUILDING marks its end fresh, and the gate enters TRAVEL where both ends are built (R20). -/
theorem State.afterSample_of_building (e : HoistEnd) (st : r.state = .building) :
    (s.setGate g r).afterSample g e .accepted =
      let u := r.modEnd e fun h => { h with fresh := true }
      if (u.endL.built u.params.buildPressure && u.endR.built u.params.buildPressure) = true then
        (s.setGate g u).enterTravel g
      else s.setGate g u := by
  simp only [State.afterSample, State.buildSample, State.modGate, State.gate_setGate_self, State.setGate_setGate, st]

/-! ### Entry to TRAVEL (R21, R38, R155) -/

/-- The first step of the entry: the record in TRAVEL. -/
theorem State.modGate_inTravel (s : State) (g : GateNo) :
    (s.modGate g fun r => { r with state := .travel, phase := none, move := { r.move with hold := none } }) =
      s.setGate g (s.gate g).inTravel := rfl

theorem State.enterTravel_set (kind : r.kind = some .set) :
    (s.setGate g r).enterTravel g =
      (s.setGate g (r.inTravel.takeTarget (r.move.orderTarget.getD 0))).travelEntry g := by
  have kind' : r.inTravel.kind = some .set := kind
  unfold State.enterTravel
  simp only [State.modGate_inTravel, State.gate_setGate_self, State.setGate_setGate, kind']
  simp only [State.modGate, State.gate_setGate_self, State.setGate_setGate]
  rfl

theorem State.enterTravel_level (kind : r.kind = some .level) :
    (s.setGate g r).enterTravel g = (s.setGate g r.inTravel.takeLevel).travelEntry g := by
  have kind' : r.inTravel.kind = some .level := kind
  unfold State.enterTravel
  simp only [State.modGate_inTravel, State.gate_setGate_self, State.setGate_setGate, kind']
  simp only [State.modGate, State.gate_setGate_self, State.setGate_setGate]

/-- A STREAM gate that enters TRAVEL with the cut mark stops there (R155). -/
theorem State.enterTravel_cut (kind : r.kind = some .stream) (cut : r.move.cut = true) :
    (s.setGate g r).enterTravel g = (s.setGate g r.inTravel).enterLocking g .cut := by
  have kind' : r.inTravel.kind = some .stream := kind
  have cut' : r.inTravel.move.cut = true := cut
  unfold State.enterTravel
  simp only [State.modGate_inTravel, State.gate_setGate_self, State.setGate_setGate, kind', cut', if_true]

theorem GateRec.takeLevel_of_held {l a : Int} (left : r.endL.held = some l) (right : r.endR.held = some a) :
    r.takeLevel = { r with move := { r.move with
      drivenEnd := some (if l < a then .r else .l),
      target := some (capTarget r.params.openingMax (if l < a then l else a)), entrySkew := some (mag (l - a)) } } := by
  simp only [GateRec.takeLevel, left, right]

/-- The envelope limits no LEVEL order (R133). -/
theorem GateRec.envelopeChange_of_level (kind : r.kind = some .level) (c : Int) : r.envelopeChange c = none := by
  unfold GateRec.envelopeChange
  split
  · next o _ _ order _ _ =>
    have level : o.kind = .level := Option.some.inj ((GateRec.kind_of_order order).symm.trans kind)
    simp only [limitedTarget, level, if_true, Option.map_none]
  · rfl

/-- The ceiling is read from the envelope and the parameters of the gate (R132, R133). -/
theorem State.ceiling_setGate (params : r.params = (s.gate g).params) : (s.setGate g r).ceiling g = s.ceiling g := by
  unfold State.ceiling
  rw [State.gate_setGate_self, params]
  rfl

theorem GateRec.phase_setValves (untrimmed : r.move.trimEnd = none) : r.setValves.phase = r.phase := by
  unfold GateRec.setValves
  rw [GateRec.followTrim_of_untrimmed untrimmed]

/-- The entry with a target that the envelope does not limit, where nothing trips and the gate is not reached (R21,
R25). -/
theorem State.travelEntry_of_short (state : r.state = .travel) (kind : r.kind ≠ some .stream)
    (params : r.params = (s.gate g).params) (free : r.envelopeChange (s.ceiling g) = none)
    (untripped : r.travelTrip = none) (unreached : r.reached = false) :
    (s.setGate g r).travelEntry g = s.setGate g r.setValves := by
  have entry := State.travelEntry_of_untripped (s := s.setGate g r) (g := g)
    (by rwa [State.gate_setGate_self, State.ceiling_setGate params]) (by rwa [State.gate_setGate_self])
  rw [entry, State.reachTest_of_not_stream (by rwa [State.gate_setGate_self]), State.gate_setGate_self,
    if_neg (ne_true_of_eq_false unreached), State.setValves, State.gate_setGate_self, if_pos state, State.modGate,
    State.gate_setGate_self, State.setGate_setGate]

end

end Sys2Proof.Machine

namespace Sys2Proof.Proofs

open Sys2Proof.Machine Sys2Proof.Safety

/-- Settles O34: by the skew test, and in SETTLING by whether the sample is quiet. -/
theorem settlingCountsQuietSamples : Obligations.SettlingCountsQuietSamples := by
  unfold Obligations.SettlingCountsQuietSamples
  refine ⟨?settling, ?trips⟩
  case settling =>
    intro g ch count p n s released m r e x r1 st pass still
    obtain ⟨params, move⟩ := accepts_keeps r e x p
    have st1 : r1.state = .settling := (GateRec.state_modEnd _ _ _).trans st
    have counts : (s.setGate g r1).afterSample g e .accepted = (s.setGate g r1).countQuiet g :=
      (State.afterSample_of_settling e st1).trans (if_neg (ne_true_of_eq_false still))
    have becomes : ∀ {w}, (s.setGate g r1).countQuiet g = s.setGate g w →
        exec (.encoderSample g ch count p n) s = .next (s.setGate g w) := fun {w} eq =>
      (exec_sample_becomes released rfl rfl pass (by simp [show (s.gate g).state = _ from st]) (counts.trans eq)).trans
        (congrArg _ (State.finish_of_marksClear (s := s.setGate g w) m))
    refine ⟨fun restless => ?restless, fun quiet more => ?more, fun quiet last pins => ?last⟩
    case restless => exact move ▸ becomes (State.countQuiet_of_restless restless)
    case more =>
      have on : ¬r1.params.quietCount ≤ r1.move.quiet + 1 := by
        rw [params, move]
        exact not_le.2 more
      exact move ▸ becomes ((State.countQuiet_of_quiet quiet).trans (if_neg on))
    case last =>
      have done : r1.params.quietCount ≤ r1.move.quiet + 1 := by
        rw [params, move]
        exact last
      obtain ⟨r', eq, enters, outcome⟩ := State.enterLocking_setGate (s := s) (g := g)
        (r := r1.counted (r1.move.quiet + 1)) params pins r1.move.settledOutcome_ne
      refine ⟨r', becomes (((State.countQuiet_of_quiet quiet).trans (if_pos done)).trans eq), ?_, ?_⟩
      · rw [GateRec.counted, move] at enters
        exact enters
      · rw [outcome, GateRec.counted, move]
        rfl
  case trips =>
    intro g ch count p n o k s released m r e x r1 pass order skew
    obtain ⟨params, move⟩ := accepts_keeps r e x p
    have kind : r1.kind = some o.kind := GateRec.kind_of_order (move ▸ order)
    have state : r1.state = r.state := GateRec.state_modEnd _ _ _
    have becomes : ∀ {t}, r.state ≠ .absent → (s.setGate g r1).afterSample g e .accepted = t →
        exec (.encoderSample g ch count p n) s = .next t.finish := fun present eq =>
      exec_sample_becomes released rfl rfl pass present eq
    have trips : r.state = .settling ∨ r.state = .held → r1.skewTripped = true →
        exec (.encoderSample g ch count p n) s = .next ((s.setGate g r1).tripGate g .skew 0 r1.skewConcern).finish := by
      rintro (st | st) tripped
      · exact becomes (by simp [st]) ((State.afterSample_of_settling e (state.trans st)).trans (if_pos tripped))
      · exact becomes (by simp [st]) ((State.afterSample_of_held e (state.trans st)).trans (if_pos tripped))
    refine ⟨fun st other skewed => ?other, fun st other within => ?within, fun entry y st level entered driven skewed =>
      ?level⟩
    case other =>
      have kind' : r1.kind ≠ some .level := by simp [kind, other]
      refine (trips st ?_).trans ?_
      · rw [GateRec.skewTripped_of_not_level kind' skew, params]
        exact decide_eq_true skewed
      · rw [GateRec.skewConcern_of_not_level kind' skew]
    case within =>
      have still : r1.skewTripped = false := by
        rw [GateRec.skewTripped_of_not_level (by simp [kind, other]) skew, params]
        exact decide_eq_false (not_lt.2 within)
      have stays : (s.setGate g r1).afterSample g e .accepted = s.setGate g r1 :=
        (State.afterSample_of_held e (state.trans st)).trans (if_neg (ne_true_of_eq_false still))
      exact (becomes (by simp [st]) stays).trans (congrArg _ (State.finish_of_marksClear (s := s.setGate g r1) m))
    case level =>
      have kind' : r1.kind = some .level := kind.trans (congrArg some level)
      refine (trips (.inl st) ?_).trans ?_
      · rw [GateRec.skewTripped_of_level kind' skew (move ▸ entered), params]
        exact decide_eq_true skewed
      · rw [GateRec.skewConcern_of_level kind' (move ▸ driven)]

/-- Settles O35: by whether both ends are built, and by the kind of the order. -/
theorem buildEndsInTravel : Obligations.BuildEndsInTravel := by
  unfold Obligations.BuildEndsInTravel
  intro g ch count p n s released m r e x r1 built st pass
  have params : r1.params = r.params := (accepts_keeps r e x p).1 ▸ GateRec.params_modEnd _ _ _
  have move : r1.move = r.move := (accepts_keeps r e x p).2 ▸ GateRec.move_modEnd _ _ _
  have sampled : (s.setGate g (accepts r e x p)).afterSample g e .accepted =
      if built = true then (s.setGate g r1).enterTravel g else s.setGate g r1 := by
    refine (State.afterSample_of_building e ((GateRec.state_modEnd _ _ _).trans st)).trans ?_
    show (if (r1.endL.built r1.params.buildPressure && r1.endR.built r1.params.buildPressure) = true then _ else _) = _
    rw [params]
    rfl
  have becomes : ∀ {t}, (if built = true then (s.setGate g r1).enterTravel g else s.setGate g r1) = t →
      exec (.encoderSample g ch count p n) s = .next t.finish := fun eq =>
    exec_sample_becomes released rfl rfl pass (by simp [show (s.gate g).state = _ from st]) (sampled.trans eq)
  have enters : ∀ {t}, built = true → MarksClear t → (s.setGate g r1).enterTravel g = t →
      exec (.encoderSample g ch count p n) s = .next t := fun {t} done clear eq =>
    (becomes ((if_pos done).trans eq)).trans (congrArg _ (State.finish_of_marksClear clear))
  refine ⟨fun unbuilt => ?unbuilt, ?set, ?level, fun o done order stream => ?stream⟩
  case unbuilt =>
    exact (becomes (if_neg (ne_true_of_eq_false unbuilt))).trans
      (congrArg _ (State.finish_of_marksClear (s := s.setGate g r1) m))
  case set =>
    intro o w c done order set target opening t r2 free untripped short untrimmed
    let v := r1.inTravel.takeTarget w
    have order1 : r1.move.order = some o := move ▸ order
    have target1 : r1.move.orderTarget = some w := move ▸ target
    have vset : v.kind = some .set := set ▸ GateRec.kind_of_order order1
    have vtarget : v.move.target = some t := congrArg (fun q : GateParams => some (capTarget q.openingMax w)) params
    have vcompared : v.compared = some c := (GateRec.compared_of_not_level (by simp [vset])).trans opening
    have vuntrimmed : v.move.trimEnd = none := (congrArg Move.trimEnd move).trans untrimmed
    have unlimited : v.envelopeChange (s.ceiling g) = none :=
      GateRec.envelopeChange_of_unlimited order1 opening vtarget (set ▸ free)
    have stays : v.travelTrip = none := by
      have same : r2 = { r1 with move := { r1.move with target := some t } } := by rw [move]
      rw [same] at untripped
      exact untripped
    have unreached : v.reached = false :=
      (GateRec.reached_of_compared vcompared vtarget).trans (decide_eq_false (not_le.2 (params.symm ▸ short)))
    have entry : (s.setGate g r1).enterTravel g = (s.setGate g v).travelEntry g :=
      (State.enterTravel_set (r := r1) vset).trans (by rw [target1]; rfl)
    have driven : (s.setGate g r1).enterTravel g = s.setGate g v.setValves :=
      entry.trans (State.travelEntry_of_short rfl (by simp [vset]) params unlimited stays unreached)
    obtain ⟨state, moves⟩ := GateRec.setValves_keeps (r := v) vuntrimmed
    refine ⟨v.setValves, enters done m driven, state, GateRec.phase_setValves vuntrimmed, moves.trans ?_, fun y => ?_⟩
    · have taken : v.move = { r1.move with
          hold := none, target := some (capTarget r1.params.openingMax w),
          clamped := r1.move.clamped || decide (r1.params.openingMax < w) } := rfl
      rw [taken, move, params]
      rfl
    · rw [GateRec.setValves_of_not_level (by simp [vset]) vuntrimmed]
      exact EndRec.driven_drive _ _ _
  case level =>
    intro o l a done order level left right d t r2 untripped short untrimmed
    have level1 : r1.kind = some .level := level ▸ GateRec.kind_of_order (move ▸ order)
    let v := { r2 with state := .travel, phase := none }
    have taken : r1.inTravel.takeLevel = v := by
      have lower : (if l < a then l else a) = min l a := by
        split <;> omega
      have levels : r1.inTravel.takeLevel = { r1 with
          state := .travel, phase := none,
          move := { r1.move with
            hold := none, drivenEnd := some d,
            target := some (capTarget r1.params.openingMax (if l < a then l else a)),
            entrySkew := some (mag (l - a)) } } := GateRec.takeLevel_of_held left right
      have target : capTarget r1.params.openingMax (min l a) = t :=
        congrArg (fun q : GateParams => capTarget q.openingMax (min l a)) params
      rw [levels, lower, target, move]
    have vlevel : v.kind = some .level := level ▸ GateRec.kind_of_order order
    have vheld : (v.hoist d).held = some (max l a) := by
      by_cases less : l < a
      · have right_leads : d = .r := if_pos less
        rw [right_leads, max_eq_right less.le]
        exact right
      · have left_leads : d = .l := if_neg less
        rw [left_leads, max_eq_left (not_lt.1 less)]
        exact left
    have vcompared : v.compared = some (max l a) := (GateRec.compared_of_level vlevel rfl).trans vheld
    have unreached : v.reached = false :=
      (GateRec.reached_of_compared vcompared rfl).trans (decide_eq_false (not_le.2 (params.symm ▸ short)))
    have driven : (s.setGate g r1).enterTravel g = s.setGate g v.setValves :=
      ((State.enterTravel_level level1).trans (by rw [taken])).trans
        (State.travelEntry_of_short rfl (by rw [vlevel]; simp) params (GateRec.envelopeChange_of_level vlevel _)
          untripped unreached)
    obtain ⟨state, moves⟩ := GateRec.setValves_keeps (r := v) untrimmed
    have hoists := fun y => GateRec.setValves_of_level (r := v) vlevel rfl untrimmed y
    refine ⟨v.setValves, enters done m driven, state, GateRec.phase_setValves (r := v) untrimmed, moves, ?_,
      fun y ne => ?_⟩
    · rw [hoists, if_pos rfl]
      exact EndRec.driven_drive _ _ _
    · rw [hoists, if_neg ne.symm]
      rfl
  case stream =>
    have stream1 : r1.kind = some .stream := stream ▸ GateRec.kind_of_order (move ▸ order)
    intro r2
    have same : r2 = r1.inTravel := by
      rw [GateRec.inTravel, move]
    have entered : (s.setGate g r1).setGate g ((s.setGate g r1).gate g).inTravel = s.setGate g r2 := by
      rw [State.gate_setGate_self, State.setGate_setGate, same]
    have uncut_enters := fun uncut => State.enterTravel_stream (s := s.setGate g r1) (g := g)
      (by rwa [State.gate_setGate_self]) (uncut : ((s.setGate g r1).gate g).move.cut = false)
    rw [entered, State.gate_setGate_self, State.queue_setGate] at uncut_enters
    refine ⟨fun cut pins => ?cut, fun uncut on empty => ?held, fun uncut on points => ?pop⟩
    case cut =>
      obtain ⟨r', eq, enters', outcome⟩ := State.enterLocking_setGate (s := s) (g := g) (r := r2) params pins
        (o := .cut) (by simp)
      refine ⟨r', enters done m ((State.enterTravel_cut stream1 (move ▸ cut)).trans (same ▸ eq)), enters', outcome⟩
    case held =>
      have stays := (uncut_enters (move ▸ uncut)).trans
        ((if_neg (ne_true_of_eq_false (move ▸ on))).trans (if_pos empty))
      exact enters done m (stays.trans (s.enterHeld_setGate g r2))
    case pop =>
      have pops := (uncut_enters (move ▸ uncut)).trans
        ((if_neg (ne_true_of_eq_false (move ▸ on))).trans (if_neg points))
      exact becomes ((if_pos done).trans pops)

end Sys2Proof.Proofs
end

section
/-! The envelope: bands, ceilings, the limit of a target, and the in-flight checks of a fallen ceiling (R130 to R134,
R137). -/

namespace Sys2Proof.Machine

open Sys2Proof.Safety

section

variable {s : State} {g : GateNo} {r : GateRec}

/-! ### Bands and ceilings (R130 to R132) -/

/-- A head lies at or above every boundary numbered below its band, and below the boundary of its band (R130). -/
theorem bandOf_spec (b : Vector Int 7) (h : Int) :
    (∀ i : Fin 7, i.val < (bandOf b h).val → b.get i ≤ h) ∧
      ∀ i : Fin 7, i.val = (bandOf b h).val → h < b.get i := by
  unfold bandOf
  simp only [Fin.forall_fin_succ]
  split_ifs <;> simp_all

theorem lt_bandOf_iff (b : Vector Int 7) (h : Int) (increasing : ∀ i j : Fin 7, i < j → b.get i < b.get j) (i : Fin 7) :
    i.val < (bandOf b h).val ↔ b.get i ≤ h := by
  obtain ⟨below, above⟩ := bandOf_spec b h
  refine ⟨below i, fun reached => ?_⟩
  by_contra high
  have lt : (bandOf b h).val < 7 := by omega
  let k : Fin 7 := ⟨(bandOf b h).val, lt⟩
  have head : h < b.get k := above k rfl
  obtain same | less := (show k ≤ i from not_lt.1 high).eq_or_lt
  · rw [← same] at reached
    omega
  · have := increasing k i less
    omega

/-- The least value of a list under `f`, from `a`: no item is below it, and it is attained. -/
theorem foldl_min_spec {α : Type} (f : α → Int) (l : List α) (a : Int) :
    l.foldl (fun m b => min m (f b)) a ≤ a ∧ (∀ b ∈ l, l.foldl (fun m b => min m (f b)) a ≤ f b) ∧
      (l.foldl (fun m b => min m (f b)) a = a ∨ ∃ b ∈ l, l.foldl (fun m b => min m (f b)) a = f b) := by
  induction l generalizing a with
  | nil => simp
  | cons x l ih =>
    obtain ⟨first, rest, attained⟩ := ih (min a (f x))
    rw [List.foldl_cons]
    obtain ⟨le_a, le_x⟩ := le_min_iff.1 first
    refine ⟨le_a, List.forall_mem_cons.2 ⟨le_x, rest⟩, ?_⟩
    rw [List.exists_mem_cons_iff]
    obtain eq | later := attained
    · rw [eq]
      obtain left | right := min_choice a (f x)
      · exact .inl left
      · exact .inr (.inl right)
    · exact .inr (.inr later)

/-- The lowest of a gate's cells is at most each of them, and is one of them (R132). -/
theorem Envelope.lowest_spec (e : Envelope) (g : GateNo) :
    (∀ b, e.lowest g ≤ e.cell b g) ∧ ∃ b, e.lowest g = e.cell b g := by
  obtain ⟨_, least, attained⟩ := foldl_min_spec (fun b => e.cell b g) allBands (e.cell 0 g)
  have every : ∀ b, b ∈ allBands := by decide
  refine ⟨fun b => least b (every b), ?_⟩
  obtain start | ⟨b, _, eq⟩ := attained
  · exact ⟨0, start⟩
  · exact ⟨b, eq⟩

theorem State.ceiling_of_band {b : BandNo} (band : s.envelope.band = some b) :
    s.ceiling g = min (s.envelope.cell b g) (s.gate g).params.openingMax := by
  simp only [State.ceiling, band]

theorem State.ceiling_of_no_band (band : s.envelope.band = none) :
    s.ceiling g = min (s.envelope.lowest g) (s.gate g).params.openingMax := by
  simp only [State.ceiling, band]

/-! ### The limit of a target (R133, R134) -/

theorem limitedTarget_eq (k : OrderKind) (r : EnvRule) (x c t : Int) :
    limitedTarget k r x c t =
      if k ≠ .level ∧ r ≠ .override ∧ x < t ∧ c < t then some (if r = .clamp ∧ x ≤ c then c else x) else none := by
  unfold limitedTarget
  by_cases level : k = .level
  · simp [level]
  · cases r with
    | override => simp [level]
    | refuse => simp [level]
    | clamp =>
      by_cases limited : x < t ∧ c < t
      · have clamped : max x (min t c) = if x ≤ c then c else x := by
          split <;> omega
        simp [level, limited, clamped]
      · simp [level, limited]

/-! ### A change of target (R28) -/

/-- Under REFUSE a change of target leaves ENVELOPE pending where nothing is, and ends a STREAM (R28, R133). -/
theorem GateRec.changeTarget_refuse (r : GateRec) (v : Int) :
    r.changeTarget .refuse v = { r with move := { r.move with
      target := some (capTarget r.params.openingMax v), outcome := some (r.move.outcome.getD .envelope),
      final := r.move.final || r.kind == some .stream,
      clamped := r.move.clamped || decide (r.params.openingMax < v) } } := by
  unfold GateRec.changeTarget
  simp only
  rw [Move.setPending_eq, Move.outcome_setPending _ (by simp)]

theorem GateRec.changeTarget_other {rule : EnvRule} (ne : rule ≠ .refuse) (r : GateRec) (v : Int) :
    r.changeTarget rule v = { r with move := { r.move with
      target := some (capTarget r.params.openingMax v), clamped := true } } := by
  cases rule with
  | refuse => exact absurd rfl ne
  | clamp | override => rfl

/-- A change of target writes the target, the outcome and the marks of the move alone (R28). -/
theorem GateRec.changeTarget_keeps (r : GateRec) (rule : EnvRule) (v : Int) :
    ∃ m, r.changeTarget rule v = { r with move := m } ∧ m.order = r.move.order ∧ m.trimEnd = r.move.trimEnd ∧
      m.target = some (capTarget r.params.openingMax v) := by
  by_cases refuse : rule = .refuse
  · rw [refuse, r.changeTarget_refuse v]
    exact ⟨_, rfl, rfl, rfl, rfl⟩
  · rw [r.changeTarget_other refuse v]
    exact ⟨_, rfl, rfl, rfl, rfl⟩

/-! ### The in-flight checks (R131, R137) -/

/-- The reach and the valves of a gate in TRAVEL that follows no stream, its record just written (R24, R25). -/
theorem State.reach_setValves (st : r.state = .travel) (kind : r.kind ≠ some .stream) :
    ((s.setGate g r).reachTest g).setValves g =
      s.setGate g (if r.reached then settlingRecord r else r.setValves) := by
  have reach := State.reachTest_of_not_stream (s := s.setGate g r) (g := g) (by rwa [State.gate_setGate_self])
  rw [State.gate_setGate_self, State.setGate_setGate] at reach
  rw [reach]
  cases r.reached with
  | true => simp [State.setValves, settlingRecord]
  | false => simp [State.setValves, State.modGate, st]

/-- The checks of the gates of a list touch these gates alone. -/
theorem State.touch_checkFalls (l : List GateNo) (s : State) : Touch (· ∈ l) s (l.foldl State.checkFall s) := by
  induction l generalizing s with
  | nil => exact .refl s
  | cons g l ih =>
    exact ((s.touch_checkFall g).mono fun _ e => e ▸ .head _).trans ((ih _).mono fun _ e => .tail _ e)

theorem State.checkFall_of_none (none : s.fallChange g = none) : s.checkFall g = s := by
  simp only [State.checkFall, none]

/-- A gate that is not in TRAVEL, SETTLING or HELD is not checked (R137). -/
theorem State.fallChange_of_other (travel : (s.gate g).state ≠ .travel) (settling : (s.gate g).state ≠ .settling)
    (held : (s.gate g).state ≠ .held) : s.fallChange g = none := by
  unfold State.fallChange
  split
  · next st => exact absurd st travel
  · next st => exact absurd st settling
  · next st => exact absurd st held
  · rfl

theorem State.fallChange_of_inFlight
    (st : (s.gate g).state = .travel ∨ (s.gate g).state = .settling ∨ (s.gate g).state = .held) :
    s.fallChange g = (s.gate g).envelopeChange (s.ceiling g) := by
  unfold State.fallChange
  obtain st | st | st := st <;> simp only [st]

/-- A target that the envelope does not limit is not changed, whatever the state (R133, R137). -/
theorem State.fallChange_of_unlimited (free : (s.gate g).envelopeChange (s.ceiling g) = none) :
    s.fallChange g = none := by
  unfold State.fallChange
  split
  · exact free
  · exact free
  · exact free
  · rfl

/-- A limited target reaches its gate (R137). -/
theorem State.checkFall_of_limited {o : RunOrder} {x t v : Int} (order : (s.gate g).move.order = some o)
    (opening : (s.gate g).opening = some x) (target : (s.gate g).move.target = some t)
    (limit : limitedTarget o.kind o.rule x (s.ceiling g) t = some v)
    (st : (s.gate g).state = .travel ∨ (s.gate g).state = .settling ∨ (s.gate g).state = .held) :
    s.checkFall g = s.retarget g o.rule v := by
  have change : s.fallChange g = some (o.rule, v) := by
    rw [State.fallChange_of_inFlight st]
    simp only [GateRec.envelopeChange, order, opening, target, limit, Option.map_some]
  simp only [State.checkFall, change]

/-- What a change of target does in each of the three states (R28, R161). -/
theorem State.retarget_eq {rule : EnvRule} {v : Int} {r' : GateRec} (changed : (s.gate g).changeTarget rule v = r') :
    (r'.state = .travel → s.retarget g rule v = ((s.setGate g r').reachTest g).setValves g) ∧
      (r'.state = .settling → s.retarget g rule v = s.setGate g (r'.counted 0)) ∧
      (r'.state = .held →
        s.retarget g rule v = if rule = .refuse then (s.setGate g r').enterTravel g else s.setGate g r') := by
  have written : (s.modGate g fun r => r.changeTarget rule v) = s.setGate g r' := by
    rw [State.modGate, changed]
  refine ⟨fun st => ?_, fun st => ?_, fun st => ?_⟩
  · simp only [State.retarget, written, State.gate_setGate_self, st]
  · simp only [State.retarget, written, State.gate_setGate_self, st]
    simp only [State.modMove, State.modGate, State.gate_setGate_self, State.setGate_setGate]
    rfl
  · simp only [State.retarget, written, State.gate_setGate_self, st]

end

end Sys2Proof.Machine

namespace Sys2Proof.Proofs

open Sys2Proof.Machine Sys2Proof.Safety

/-- Settles O45: the ceiling by the band, the hand-over by the checks it calls for, a check by the state of the gate. -/
theorem ceilingAndLimitRule : Obligations.CeilingAndLimitRule := by
  unfold Obligations.CeilingAndLimitRule
  refine ⟨fun b h increasing i => lt_bandOf_iff b h increasing i, fun s g b band => State.ceiling_of_band band,
    fun s g band => ?lowest, limitedTarget_eq, ?handOver, ?check⟩
  case lowest =>
    obtain ⟨least, b, attained⟩ := s.envelope.lowest_spec g
    rw [State.ceiling_of_no_band band]
    refine ⟨fun b => (min_le_left _ _).trans (least b), min_le_right _ _, ?_⟩
    obtain left | right := min_choice (s.envelope.lowest g) (s.gate g).params.openingMax
    · exact .inl ⟨b, left.trans attained⟩
    · exact .inr right
  case handOver =>
    intro c s m band s' checked
    have followed : s.setEnvelope (s.envelope.follow c) = s' := by
      cases c <;> rfl
    have handed : s.handOver c = ((freeOrder s.freeCount checked).foldl State.checkFall
        (if 2 ≤ checked.length then s'.bump else s')).takeReport := by
      rw [State.handOver, followed]
      rfl
    let start := if 2 ≤ checked.length then s'.bump else s'
    let after := (freeOrder s.freeCount checked).foldl State.checkFall start
    have begun : start.envelope = s'.envelope ∧ ∀ g, start.gate g = s.gate g := by
      unfold start
      split <;> exact ⟨rfl, fun _ => rfl⟩
    have touch : Touch (· ∈ freeOrder s.freeCount checked) start after := State.touch_checkFalls _ _
    obtain ⟨_, _, _, _, _, frame, _⟩ := after.takeReport_frame
    refine ⟨?_, fun g unchecked => ?_, fun nil => ?_, fun g one => ?_⟩
    · rw [handed, frame]
      exact touch.kept.envelope.trans begun.1
    · have gate : after.takeReport.gate g = after.gate g := by
        rw [frame]
        rfl
      have untouched : g ∉ freeOrder s.freeCount checked := fun mem =>
        unchecked ((freeOrder_perm s.freeCount checked).mem_iff.1 mem)
      rw [handed]
      exact (gate.trans (touch.others untouched).1).trans (begun.2 g)
    · have unchecked : s.handOver c = s'.takeReport := by
        rw [handed, nil]
        rfl
      have clear : s'.marks = ⟨false, false⟩ := m
      exact unchecked.trans (if_neg (by simp [clear]))
    · rw [handed, one]
      rfl
  case check =>
    intro g o x t s r limit order opening target
    refine ⟨fun travel settling held => State.checkFall_of_none (State.fallChange_of_other travel settling held),
      fun free => State.checkFall_of_none (State.fallChange_of_unlimited
        (GateRec.envelopeChange_of_unlimited order opening target free)), fun v limited => ?_⟩
    intro w m r'
    have changed : r.changeTarget o.rule v = r' := by
      by_cases refuse : o.rule = .refuse
      · have kind : (r.kind == some .stream) = (o.kind == .stream) := by
          rw [GateRec.kind_of_order order]
          rfl
        have move : m = _ := if_pos refuse
        rw [refuse, GateRec.changeTarget_refuse, kind]
        exact congrArg (fun m : Move => { r with move := m }) move.symm
      · have move : m = _ := if_neg refuse
        rw [GateRec.changeTarget_other refuse]
        exact congrArg (fun m : Move => { r with move := m }) move.symm
    obtain ⟨m', written, morder, mtrim, mtarget⟩ := r.changeTarget_keeps o.rule v
    obtain rfl : m' = m := congrArg GateRec.move (written.symm.trans changed)
    obtain ⟨travels, settles, holds⟩ := State.retarget_eq changed
    have checks := State.checkFall_of_limited order opening target limited
    have rorder : r'.move.order = some o := morder.trans order
    have rtarget : r'.move.target = some w := mtarget
    have kind : o.kind = .set → r'.kind = some .set := fun set => set ▸ GateRec.kind_of_order rorder
    have compared : o.kind = .set → r'.compared = some x := fun set =>
      (GateRec.compared_of_not_level (by simp [kind set])).trans opening
    have reach : r.state = .travel → o.kind = .set →
        s.checkFall g = s.setGate g (if r'.reached then settlingRecord r' else r'.setValves) := fun st set =>
      ((checks (.inl st)).trans (travels st)).trans (State.reach_setValves (r := r') st (by simp [kind set]))
    refine ⟨fun st => (checks (.inr (.inl st))).trans (settles st),
      fun st ne => ((checks (.inr (.inr st))).trans (holds st)).trans (if_neg ne),
      fun st refuse => ((checks (.inr (.inr st))).trans (holds st)).trans (if_pos refuse),
      fun st => (checks (.inl st)).trans (travels st), fun st set reached => ?reached,
      fun st set short untrimmed => ?driven⟩
    case reached =>
      have reaches : r'.reached = true :=
        (GateRec.reached_of_compared (compared set) rtarget).trans (decide_eq_true reached)
      exact (reach st set).trans (by rw [if_pos reaches])
    case driven =>
      have unreached : r'.reached = false :=
        (GateRec.reached_of_compared (compared set) rtarget).trans (decide_eq_false (not_le.2 short))
      have untrimmed' : r'.move.trimEnd = none := mtrim.trans untrimmed
      obtain ⟨state, moves⟩ := GateRec.setValves_keeps untrimmed'
      refine ⟨r'.setValves, (reach st set).trans (by rw [if_neg (ne_true_of_eq_false unreached)]), state.trans st,
        moves, fun y => ?_⟩
      rw [GateRec.setValves_of_not_level (by simp [kind set]) untrimmed', EndRec.valve_drive,
        GateRec.raising_of_compared (compared set) rtarget,
        GateRec.rateNow_of_compared (compared set) rtarget rorder (by simp [set])]
      simp only [decide_eq_true_eq]
      rfl

end Sys2Proof.Proofs
end
